-- ==== Sys2Proof/Word.lean ====
section
/-! DEFINITION. The word types of revo-DL and the names of its two command ports. -/

namespace Sys2Proof

/-- A command word, operand word, sample or 32-bit register (20_memory.md R77, 30_encoding.md R100). A binary32
value is its IEEE 754 interchange pattern. -/
abbrev Word := BitVec 32

/-- A binary64 register or 64-bit operand, as its bit pattern (20_memory.md R77). -/
abbrev Word64 := BitVec 64

/-- The two command ports (30_encoding.md R101): `r` is the render port, `c` the control port. -/
inductive Port where
  | r
  | c
deriving DecidableEq, Repr

end Sys2Proof
end

