-- ==== Sys2Proof/Syntax.lean ====
section
/-! DEFINITION. The commands of revo-DL: one constructor per row of spec/opcode_table.json (30_encoding.md R103),
with the operands of R104 to R107 pulled out of the words. -/

namespace Sys2Proof

/-- A command with its operands. A `PA` is the 4-bit parameter address of R104, so every value of the type is an
encodable command (R111: no operand value makes a legal command illegal). -/
inductive Instr where
  /-- INIT: input channel count, output channel count, sample rate (binary64 pattern). 45_interface.md R230. -/
  | init (inCh outCh : Word) (sampleRate : Word64)
  /-- DEINIT. 45_interface.md R231. -/
  | deinit
  /-- SETBYP: the bypass value `IMM16[0]`. 45_interface.md R232. -/
  | setbyp (b : Bool)
  /-- GETBYP. 45_interface.md R233. -/
  | getbyp
  /-- SETP: parameter address and binary32 value. 41_parameter_store.md R131. -/
  | setp (pa : BitVec 4) (v : Word)
  /-- GETP: parameter address. 41_parameter_store.md R132. -/
  | getp (pa : BitVec 4)
  /-- SETMAXF: the frame bound. 45_interface.md R234. -/
  | setmaxf (count : Word)
  /-- GETMAXF. 45_interface.md R235. -/
  | getmaxf
  /-- PROCESS: input and output channel counts, frame count, block start time (never used). 44_render.md R190. -/
  | process (nIn nOut frames : Word) (startTime : Word64)
  /-- EVENT: time, tag and two payload words, all ignored. 45_interface.md R236. -/
  | event (time : Word64) (tag payload0 payload1 : Word)
  /-- SETCTX: an opaque 64-bit handle. 45_interface.md R237. -/
  | setctx (handle : Word64)
deriving DecidableEq, Repr

end Sys2Proof
end

