-- ==== Sys2Proof/WellFormed.lean ====
section
/-! DEFINITION. The opcodes, and which command a port accepts (30_encoding.md R101, R103). The operand types of `Instr`
already hold what the encoding can hold, so acceptance by the port is the one check left. -/

namespace Sys2Proof

/-- The opcode of each row of 30_encoding.md R103. -/
inductive Op where
  | init
  | deinit
  | setbyp
  | getbyp
  | setp
  | getp
  | setmaxf
  | getmaxf
  | process
  | event
  | setctx
deriving DecidableEq, Repr

/-- Operand words of the row (30_encoding.md R103, R106). -/
def Op.operandCount : Op → Nat
  | .init => 4
  | .deinit => 0
  | .setbyp => 0
  | .getbyp => 0
  | .setp => 1
  | .getp => 0
  | .setmaxf => 1
  | .getmaxf => 0
  | .process => 5
  | .event => 5
  | .setctx => 2

/-- Port R accepts every command; port C accepts SETBYP, GETBYP, SETP and GETP only (30_encoding.md R101). -/
def Op.acceptedOn : Port → Op → Bool
  | .r, _ => true
  | .c, .init => false
  | .c, .deinit => false
  | .c, .setbyp => true
  | .c, .getbyp => true
  | .c, .setp => true
  | .c, .getp => true
  | .c, .setmaxf => false
  | .c, .getmaxf => false
  | .c, .process => false
  | .c, .event => false
  | .c, .setctx => false

/-- The opcode of a command. -/
def Instr.op : Instr → Op
  | .init _ _ _ => .init
  | .deinit => .deinit
  | .setbyp _ => .setbyp
  | .getbyp => .getbyp
  | .setp _ _ => .setp
  | .getp _ => .getp
  | .setmaxf _ => .setmaxf
  | .getmaxf => .getmaxf
  | .process _ _ _ _ => .process
  | .event _ _ _ _ => .event
  | .setctx _ => .setctx

/-- A command is well formed on a port when the port accepts its opcode (30_encoding.md R101, R109). -/
def Instr.wellFormed (p : Port) (i : Instr) : Bool := i.op.acceptedOn p

end Sys2Proof
end

