-- ==== Sys2Proof/Decode.lean ====
section
/-! DEFINITION. Command words to commands (30_encoding.md R100 to R112) and back. The decoder is total on any list of
words; it reads the command word, finds its row, checks the port and then takes exactly the row's operand words (R112). -/

namespace Sys2Proof

/-- Why a list of words gives no command on a port. All but `truncated` are R109's illegal command words. -/
inductive Reject where
  /-- No command word, or operand words still to arrive: the port waits (R100). -/
  | truncated
  /-- `OPC` is 0x00 or in 0x0C to 0xFF (R109). -/
  | unassignedOpcode
  /-- `RSV` is not zero (R109). -/
  | reservedField
  /-- `PA` is not zero on a command other than SETP and GETP (R109). -/
  | strayParameterAddress
  /-- `IMM16` has a bit set other than bit 0 of SETBYP (R109). -/
  | strayImmediate
  /-- A port R command arrived on port C (R101, R109). -/
  | wrongPort
deriving DecidableEq, Repr

/-- The `match` column of R103. -/
def Op.pattern : Op → Word
  | .init => 0x01000000
  | .deinit => 0x02000000
  | .setbyp => 0x03000000
  | .getbyp => 0x04000000
  | .setp => 0x05000000
  | .getp => 0x06000000
  | .setmaxf => 0x07000000
  | .getmaxf => 0x08000000
  | .process => 0x09000000
  | .event => 0x0A000000
  | .setctx => 0x0B000000

/-- The `mask` column of R103. -/
def Op.mask : Op → Word
  | .init => 0xFFFFFFFF
  | .deinit => 0xFFFFFFFF
  | .setbyp => 0xFFFFFFFE
  | .getbyp => 0xFFFFFFFF
  | .setp => 0xFF0FFFFF
  | .getp => 0xFF0FFFFF
  | .setmaxf => 0xFFFFFFFF
  | .getmaxf => 0xFFFFFFFF
  | .process => 0xFFFFFFFF
  | .event => 0xFFFFFFFF
  | .setctx => 0xFFFFFFFF

/-- The rows of R103, in its order. -/
def opcodeTable : List Op :=
  [.init, .deinit, .setbyp, .getbyp, .setp, .getp, .setmaxf, .getmaxf, .process, .event, .setctx]

/-- Field `OPC`, bits 31:24 (R102). -/
def opcField (w : Word) : BitVec 8 := w.extractLsb' 24 8

/-- Field `PA`, bits 23:20 (R102). -/
def paField (w : Word) : BitVec 4 := w.extractLsb' 20 4

/-- Field `RSV`, bits 19:16 (R102). -/
def rsvField (w : Word) : BitVec 4 := w.extractLsb' 16 4

/-- Field `IMM16`, bits 15:0 (R102). -/
def immField (w : Word) : BitVec 16 := w.extractLsb' 0 16

/-- A row is selected by a command word when `(w & mask) == match` (R103). -/
def Op.selects (w : Word) (o : Op) : Bool := w &&& o.mask == o.pattern

/-- The row of a command word; at most one row matches any word (R103). -/
def selectRow (w : Word) : Option Op := opcodeTable.find? (Op.selects w)

/-- The name of what is wrong with a word that no row matches (R109). -/
def rejectReason (w : Word) : Reject :=
  if (opcodeTable.all fun o => opcField w != opcField o.pattern) then .unassignedOpcode
  else if rsvField w != 0 then .reservedField
  else if paField w != 0 && opcField w != 0x05 && opcField w != 0x06 then .strayParameterAddress
  else .strayImmediate

/-- A 64-bit operand from its two words, low word first in arrival order (R107). -/
def joinWords (lo hi : Word) : Word64 := hi ++ lo

/-- Bits 31:0 of a 64-bit value (R107). -/
def lowWord (x : Word64) : Word := x.extractLsb' 0 32

/-- Bits 63:32 of a 64-bit value (R107). -/
def highWord (x : Word64) : Word := x.extractLsb' 32 32

/-- The command of a row whose command word is `w`, with its operand words taken off the list (R106, R112). -/
def takeOperands (w : Word) : Op → List Word → Except Reject (Instr × List Word)
  | .init, a :: b :: lo :: hi :: rest => .ok (.init a b (joinWords lo hi), rest)
  | .init, _ => .error .truncated
  | .deinit, rest => .ok (.deinit, rest)
  | .setbyp, rest => .ok (.setbyp (w.getLsbD 0), rest)
  | .getbyp, rest => .ok (.getbyp, rest)
  | .setp, v :: rest => .ok (.setp (paField w) v, rest)
  | .setp, _ => .error .truncated
  | .getp, rest => .ok (.getp (paField w), rest)
  | .setmaxf, n :: rest => .ok (.setmaxf n, rest)
  | .setmaxf, _ => .error .truncated
  | .getmaxf, rest => .ok (.getmaxf, rest)
  | .process, a :: b :: f :: lo :: hi :: rest => .ok (.process a b f (joinWords lo hi), rest)
  | .process, _ => .error .truncated
  | .event, lo :: hi :: tag :: p0 :: p1 :: rest => .ok (.event (joinWords lo hi) tag p0 p1, rest)
  | .event, _ => .error .truncated
  | .setctx, lo :: hi :: rest => .ok (.setctx (joinWords lo hi), rest)
  | .setctx, _ => .error .truncated

/-- Decode the next command of a port's words. An illegal command word is rejected before any operand word is looked at
(R109). -/
def decodeOn (p : Port) : List Word → Except Reject (Instr × List Word)
  | [] => .error .truncated
  | w :: rest =>
    match selectRow w with
    | none => .error (rejectReason w)
    | some o => if o.acceptedOn p then takeOperands w o rest else .error .wrongPort

/-- The command word of a command (R102, R104, R105). -/
def commandWord (i : Instr) : Word :=
  match i with
  | .setbyp b => Op.pattern .setbyp ||| (if b then 1 else 0)
  | .setp pa _ => Op.pattern .setp ||| (pa.zeroExtend 32 <<< 20)
  | .getp pa => Op.pattern .getp ||| (pa.zeroExtend 32 <<< 20)
  | .init _ _ _ => Op.pattern .init
  | .deinit => Op.pattern .deinit
  | .getbyp => Op.pattern .getbyp
  | .setmaxf _ => Op.pattern .setmaxf
  | .getmaxf => Op.pattern .getmaxf
  | .process _ _ _ _ => Op.pattern .process
  | .event _ _ _ _ => Op.pattern .event
  | .setctx _ => Op.pattern .setctx

/-- The operand words of a command, in arrival order (R106, R107). -/
def operandWords (i : Instr) : List Word :=
  match i with
  | .init a b sr => [a, b, lowWord sr, highWord sr]
  | .deinit => []
  | .setbyp _ => []
  | .getbyp => []
  | .setp _ v => [v]
  | .getp _ => []
  | .setmaxf n => [n]
  | .getmaxf => []
  | .process a b f t => [a, b, f, lowWord t, highWord t]
  | .event t tag p0 p1 => [lowWord t, highWord t, tag, p0, p1]
  | .setctx h => [lowWord h, highWord h]

/-- The words of a command (R100). -/
def encode (i : Instr) : List Word := commandWord i :: operandWords i

/-- The longest command has 6 words (R112). -/
def maxWords : Nat := 6

/-- The words of a command whose bits are `w`, numbered from bit 0 of the first word, every bit from `nbits` up being
0: the first `maxWords` words. -/
def tableWords (nbits w : Nat) : List Word :=
  (List.range maxWords).map fun k => BitVec.ofNat 32 ((w % 2 ^ nbits) >>> (32 * k))

/-- The command the decoder reads, on port R, from the words of `w`. -/
def decodeTableWord (nbits w : Nat) : Option Instr :=
  match decodeOn .r (tableWords nbits w) with
  | .ok (i, _) => some i
  | .error _ => none

/-- The words of `w` that its command takes: all of them where the row is unknown. -/
def commandWords (nbits w : Nat) : List Word :=
  match decodeOn .r (tableWords nbits w) with
  | .ok (i, _) => (tableWords nbits w).take (1 + i.op.operandCount)
  | .error _ => tableWords nbits w

end Sys2Proof
end

