-- ==== Sys2Proof/Config.lean ====
section
/-! DEFINITION. What an implementation fixes (00_scope.md R11 to R13) as one record of plain data that State holds, and
the free values of the spec as constants without a body. -/

namespace Sys2Proof

/-- The oscillator's sine, parameter `SIN32` of 00_scope.md R13: the reference instance (the correctly rounded sine,
R13's default), or an uninterpreted function of which only the properties of 43_oscillator.md R172 are known. -/
inductive SineUnit where
  | reference
  | uninterpreted
deriving DecidableEq, Repr

/-- The parameters of 00_scope.md R11, R12 and R13. No step changes them. -/
structure Config where
  /-- `MAX_CH` (R11). -/
  maxCh : Nat
  /-- `DLM_WORDS` (R11). -/
  dlmWords : Nat
  /-- `CAP_SECONDS`, binary64 (R12). -/
  capSeconds : Word64
  /-- `PCT_SCALE`, binary64 (R12). -/
  pctScale : Word64
  /-- `ZENO_G0`, binary32 (R12). -/
  zenoG0 : Word
  /-- `ZENO_DECAY`, binary32 (R12). -/
  zenoDecay : Word
  /-- `ZENO_FB`, binary64 (R12). -/
  zenoFb : Word64
  /-- `CLAMP_LIM`, binary64 (R12). -/
  clampLim : Word64
  /-- `PAN_HALF`, binary32 (R12). -/
  panHalf : Word
  /-- `TWO_PI_64`, binary64 (R12). -/
  twoPi64 : Word64
  /-- `TWO_PI_32`, binary32 (R12). -/
  twoPi32 : Word
  /-- `SIN32` (R13). -/
  sine : SineUnit
  /-- `FTZ` (R13). -/
  ftz : Bool
  /-- `WEAK_VIS` (R13). -/
  weakVis : Bool
deriving DecidableEq, Repr

/-- The source's values of R12 and the defaults of R13. `MAX_CH` and `DLM_WORDS` are OPEN (R11, D30): DESIGN CHOICE,
the values 8 and 2^22 of 95_test_vectors.md's conventions; unsafe for a claim that rests on them (log 3). -/
def Config.source : Config where
  maxCh := 8
  dlmWords := 4194304
  capSeconds := 0x4008000000000000
  pctScale := 0x4059000000000000
  zenoG0 := 0x3F666666
  zenoDecay := 0x3F000000
  zenoFb := 0x3FE0000000000000
  clampLim := 0x3FF0000000000000
  panHalf := 0x3F000000
  twoPi64 := 0x401921FB54442D18
  twoPi32 := 0x40C90FDB
  sine := .reference
  ftz := false
  weakVis := false

/-- The bounds R11 states of the two sizes. -/
abbrev Config.wf (c : Config) : Prop := 1 ≤ c.maxCh ∧ 2 ≤ c.dlmWords

/-- FREE VALUE (`NAN_DRAW`, 00_scope.md R13, R16): the bits from which draw `n` takes its binary32 NaN (log 8). -/
opaque Config.nanBits32 : Nat → Word

/-- FREE VALUE (`NAN_DRAW`): the bits from which draw `n` takes its binary64 NaN (log 8). -/
opaque Config.nanBits64 : Nat → Word64

/-- FREE VALUE (`SIN32`, 43_oscillator.md R172): the uninterpreted sine before R172's properties are imposed on it by
`Machine.sineOf` (log 9). -/
opaque Config.sineBits : Word → Word

/-- FREE VALUE: choice `n` of the run: which agent moves (20_memory.md R82), which half of a binary64 register is written
first (41_parameter_store.md R131), which pending write is applied (20_memory.md R86) (log 2), and whether a GETBYP sees
a pending SETBYP (log 13). -/
opaque Config.freeChoice : Nat → Nat

end Sys2Proof
end

