-- ==== Sys2Proof/Machine/State.lean ====
section
/-! DEFINITION. The state of revo-DL as plain data (10_state.md, 20_memory.md), the ways a step can stop, and the state
after power-on reset (70_reset_and_hazards.md R290). -/

namespace Sys2Proof.Machine

/-- A word-addressed memory (20_memory.md R70, R77: the word is the smallest addressable unit, log 4): the words that are
not +0.0, by rising index. An unlisted word reads 0x00000000 (log 5). -/
abbrev Memory := List (Nat × Word)

/-- The one form a memory is written in: indices strictly rising, no word listed that an unlisted one equals. -/
abbrev Memory.wf (m : Memory) : Prop :=
  m.Pairwise (fun p q => p.1 < q.1) ∧ ∀ c ∈ m, c.2 ≠ 0#32

/-- A binary64 parameter register: two halves, each with its written mark (10_state.md R36 to R39, R46). -/
structure Reg64 where
  lo : Word
  hi : Word
  loWritten : Bool
  hiWritten : Bool
deriving DecidableEq, Repr

/-- A 32-bit register with its written mark (10_state.md R42, R44, R46). -/
structure Reg32 where
  val : Word
  written : Bool
deriving DecidableEq, Repr

/-- A 1-bit register with its written mark (10_state.md R40, R41, R43, R46). -/
structure Flag where
  val : Bool
  written : Bool
deriving DecidableEq, Repr

/-- The binary64 parameter registers (10_state.md R35). -/
inductive Wide where
  | time
  | dry
  | wet
  | feedback
deriving DecidableEq, Repr

/-- What one write event writes (20_memory.md R79, R86): a half of a binary64 register, or a whole small register that
port C can write. -/
inductive Slot where
  | lo (r : Wide)
  | hi (r : Wide)
  | zeno
  | pingpong
  | freq
  | bypass
deriving DecidableEq, Repr

/-- One write event: a register or register half and its 32-bit value (10_state.md R56). A 1-bit register takes bit 0. -/
structure RegWrite where
  slot : Slot
  val : Word
deriving DecidableEq, Repr

/-- The datapath sequencer `SEQ` (10_state.md R53). -/
inductive Seq where
  | idle
  | frame (i : Nat)
  | chan (i ch : Nat)
deriving DecidableEq, Repr

/-- The fault codes of 60_exceptions.md R261. -/
inductive TrapCode where
  | illegalCmd
  | notInit
  | badSr
  | chMismatch
  | chRange
  | capacity
  | frames
  | unwritten
  | badTime
deriving DecidableEq, Repr

/-- How a step of the MODEL stops. The faults of the spec (60_exceptions.md R261) are not here: raising one is a next
state, by fault entry (R260). -/
inductive Fault where
  /-- Raised by `step` in a FAULTED state: nothing executes after a fault until power-on reset (60_exceptions.md R260,
  R264; 93_implementation_defined.md row 27 calls it stuck). Safe. -/
  | halted
  /-- Raised by DL_READ and DL_WRITE for a channel, an offset or a DLM index outside 42_delay_line.md R151 and R152's
  ranges, which 20_memory.md R78 says no run forms. Safe. -/
  | delayIndex
deriving DecidableEq, Repr

/-- Why the model has no meaning for a command. Nothing of this model raises it. -/
inductive Refusal where
  /-- A command whose meaning is not written: safe. No arm of `exec` raises it. -/
  | notModelled (mnemonic : String)
deriving DecidableEq, Repr

/-- The whole machine. -/
structure State where
  /-- The implementation's parameters (00_scope.md R11 to R13). -/
  cfg : Config
  /-- `INITD` (10_state.md R31). -/
  initd : Bool
  /-- `SR`, binary64 (R32). -/
  sr : Word64
  /-- `NCH` (R33). -/
  nch : Word
  /-- `CAP` (R34). -/
  cap : Nat
  /-- `TIME` (R36). -/
  time : Reg64
  /-- `DRY` (R37). -/
  dry : Reg64
  /-- `WET` (R38). -/
  wet : Reg64
  /-- `FEEDBACK` (R39). -/
  feedback : Reg64
  /-- `ZENO` (R40). -/
  zeno : Flag
  /-- `PINGPONG` (R41). -/
  pingpong : Flag
  /-- `FREQ`, binary32 (R42). -/
  freq : Reg32
  /-- `BYPASS` (R43). -/
  bypass : Flag
  /-- `MAXF` (R44). -/
  maxf : Reg32
  /-- `CTX` (R45). -/
  ctx : Word64
  /-- `RESP_R` (R48). -/
  respR : Word
  /-- `RESP_C` (R48). -/
  respC : Word
  /-- `FAULT_CODE` (R49). The block is FAULTED when it is not 0 (60_exceptions.md R260, R261). -/
  faultCode : BitVec 8
  /-- `FAULT_INFO` (R49). -/
  faultInfo : Word
  /-- `FAULT_PORT` (R49): 0 is port R or the datapath, 1 is port C. -/
  faultPort : BitVec 1
  /-- `DLM` (20_memory.md R71), holding every `DL[ch][j]` (10_state.md R50). -/
  dlm : Memory
  /-- `WI[ch]` for each allocated channel, in channel order (R51). -/
  wi : List Nat
  /-- `PHASE`, binary32 (R52). -/
  phase : Word
  /-- `SEQ` (R53). -/
  seq : Seq
  /-- `PNCH` (R53). -/
  pnch : Word
  /-- `PF` (R53). -/
  pf : Word
  /-- `BASE_D` (R54). -/
  baseD : Nat
  /-- `ACTIVE` (R55). -/
  active : Bool
  /-- `GL`, binary32 (R55). -/
  gl : Word
  /-- `GR`, binary32 (R55). -/
  gr : Word
  /-- The second half-write of a SETP in progress on port R (41_parameter_store.md R131; log 12). -/
  halfR : Option RegWrite
  /-- The second half-write of a SETP in progress on port C (10_state.md R56). -/
  halfC : Option RegWrite
  /-- Port C's pending writes under `WEAK_VIS`, in issue order (20_memory.md R86). -/
  weakPend : List RegWrite
  /-- Words delivered on port R and not consumed (30_encoding.md R100). -/
  inR : List Word
  /-- Words delivered on port C and not consumed (30_encoding.md R100). -/
  inC : List Word
  /-- Completions signalled on port R (30_encoding.md R101; log 17). -/
  doneR : Nat
  /-- Completions signalled on port C (30_encoding.md R101; log 17). -/
  doneC : Nat
  /-- `IN` (20_memory.md R73): word `IN[ch][i]` stands at `sampleIndex ch i`. -/
  inBuf : Memory
  /-- `OUT` (20_memory.md R74): word `OUT[ch][i]` stands at `sampleIndex ch i`. -/
  outBuf : Memory
  /-- MODEL: the port whose command is executing (30_encoding.md R101; log 18). -/
  port : Port
  /-- MODEL: whether a GETBYP of port C sees its own pending SETBYPs; each SETBYP that becomes pending draws it anew
  (20_memory.md R80, R86; log 13). -/
  bypassAhead : Bool
  /-- MODEL: how many free values have been drawn (log 8). -/
  draws : Nat
  /-- MODEL: choices prescribed for the run, used before the free ones (log 2). -/
  choices : List Nat
deriving DecidableEq, Repr

/-- A register nothing has written (10_state.md R46); the bits are DESIGN CHOICE 0 (log 7). -/
def Reg64.unwritten : Reg64 := ⟨0, 0, false, false⟩

/-- A register nothing has written (10_state.md R46); the bits are DESIGN CHOICE 0 (log 7). -/
def Reg32.unwritten : Reg32 := ⟨0, false⟩

/-- A register nothing has written (10_state.md R46); the bit is DESIGN CHOICE 0 (log 7). -/
def Flag.unwritten : Flag := ⟨false, false⟩

/-- The state after power-on reset of the machine whose parameters are `c` (10_state.md R60, 70_reset_and_hazards.md
R290). `SR`, `CTX`, `RESP_R`, `RESP_C`, `PNCH`, `PF`, `BASE_D`, `ACTIVE`, `GL`, `GR` are unwritten there and carry no
mark: DESIGN CHOICE 0 (log 7). -/
def State.resetWith (c : Config) : State where
  cfg := c
  initd := false
  sr := 0
  nch := 0
  cap := 0
  time := .unwritten
  dry := .unwritten
  wet := .unwritten
  feedback := .unwritten
  zeno := .unwritten
  pingpong := .unwritten
  freq := .unwritten
  bypass := .unwritten
  maxf := .unwritten
  ctx := 0
  respR := 0
  respC := 0
  faultCode := 0
  faultInfo := 0
  faultPort := 0
  dlm := []
  wi := []
  phase := 0
  seq := .idle
  pnch := 0
  pf := 0
  baseD := 0
  active := false
  gl := 0
  gr := 0
  halfR := none
  halfC := none
  weakPend := []
  inR := []
  inC := []
  doneR := 0
  doneC := 0
  inBuf := []
  outBuf := []
  port := .r
  bypassAhead := false
  draws := 0
  choices := []

/-- The machine right after power-on reset, with the source's parameters. -/
def State.reset : State := State.resetWith Config.source

end Sys2Proof.Machine
end

