-- ==== Sys2Proof/Machine/Ops.lean ====
section
/-! DEFINITION. The named operations every meaning is written over: word memory, register writes, free choices, fault
entry (60_exceptions.md R260), completion (30_encoding.md R101) and the end of a command or micro-step. -/

namespace Sys2Proof.Machine

/-- What a step answers. -/
abbrev Answer := Host.Outcome State Fault Refusal

/-! ### Word memory (20_memory.md R70 to R74, R79) -/

/-- The word at an index; an unlisted word reads 0x00000000 (log 5). -/
def Memory.read : Memory → Nat → Word
  | [], _ => 0#32
  | (k, v) :: m, a => if a = k then v else Memory.read m a

/-- Write one word, keeping the canonical form: writing 0x00000000 removes the entry. -/
def Memory.write : Memory → Nat → Word → Memory
  | [], a, v => if v = 0#32 then [] else [(a, v)]
  | (k, x) :: m, a, v =>
    if a < k then (if v = 0#32 then (k, x) :: m else (a, v) :: (k, x) :: m)
    else if a = k then (if v = 0#32 then m else (a, v) :: m)
    else (k, x) :: Memory.write m a v

/-- Write `+0.0` to every word below `n` (the zero fill of 45_interface.md R230). -/
def Memory.zeroBelow (m : Memory) (n : Nat) : Memory := m.filter fun c => n ≤ c.1

/-- Where `IN[ch][i]` and `OUT[ch][i]` stand in their spaces: one stride of 2^32 frames per channel, since a frame count
is a uint32 (20_memory.md R73, R74; log 6). -/
def sampleIndex (ch i : Nat) : Nat := ch * 4294967296 + i

/-! ### Free choices (20_memory.md R82, 41_parameter_store.md R131; log 2) -/

/-- The next choice of the run: the first prescribed one, else a free value. -/
def State.choice (s : State) : Nat :=
  match s.choices with
  | n :: _ => n
  | [] => Config.freeChoice s.draws

/-- The state after the next choice is used. -/
def State.choiceUsed (s : State) : State := { s with choices := s.choices.tail, draws := s.draws + 1 }

/-- The state after `n` arithmetic operations, each of which may have drawn a NaN (00_scope.md R16). -/
def State.drawn (s : State) (n : Nat) : State := { s with draws := s.draws + n }

/-! ### Registers that a write event writes (10_state.md R46, 20_memory.md R79) -/

/-- A binary64 parameter register by name (10_state.md R35). -/
def State.wide (s : State) : Wide → Reg64
  | .time => s.time
  | .dry => s.dry
  | .wet => s.wet
  | .feedback => s.feedback

/-- A binary64 register `r` after a write event: a half that the event names takes its value and its written mark
(10_state.md R46). -/
def Reg64.after (x : Reg64) (r : Wide) (w : RegWrite) : Reg64 where
  lo := if w.slot = .lo r then w.val else x.lo
  hi := if w.slot = .hi r then w.val else x.hi
  loWritten := if w.slot = .lo r then true else x.loWritten
  hiWritten := if w.slot = .hi r then true else x.hiWritten

/-- A 1-bit register of slot `k` after a write event. -/
def Flag.after (x : Flag) (k : Slot) (w : RegWrite) : Flag :=
  if w.slot = k then ⟨w.val.getLsbD 0, true⟩ else x

/-- A 32-bit register of slot `k` after a write event. -/
def Reg32.after (x : Reg32) (k : Slot) (w : RegWrite) : Reg32 :=
  if w.slot = k then ⟨w.val, true⟩ else x

/-- Apply one write event: the register or half takes the value and its written mark is set (10_state.md R46); every other
register keeps its own. -/
def State.applyWrite (s : State) (w : RegWrite) : State :=
  { s with
    time := s.time.after .time w
    dry := s.dry.after .dry w
    wet := s.wet.after .wet w
    feedback := s.feedback.after .feedback w
    zeno := s.zeno.after .zeno w
    pingpong := s.pingpong.after .pingpong w
    freq := s.freq.after .freq w
    bypass := s.bypass.after .bypass w }

/-- A write event of the executing port: on port C under `WEAK_VIS` it joins the pending set, else it is applied at once
(20_memory.md R85, R86). -/
def State.issueWrite (s : State) (w : RegWrite) : State :=
  if s.port = .c ∧ s.cfg.weakVis = true then { s with weakPend := s.weakPend ++ [w] } else s.applyWrite w

/-- The registers with every pending port C write applied in issue order: what a GETP on port C reads (20_memory.md
R86). -/
def State.withPending (s : State) : State := s.weakPend.foldl State.applyWrite s

/-- One bit as the value of a write event. -/
def bitWord (b : Bool) : Word := if b then 1 else 0

/-! ### Ports (30_encoding.md R101) -/

/-- The words delivered on a port. -/
def State.queue (s : State) : Port → List Word
  | .r => s.inR
  | .c => s.inC

/-- Replace the words of a port. -/
def State.setQueue (s : State) (p : Port) (ws : List Word) : State :=
  { s with inR := if p = .r then ws else s.inR, inC := if p = .c then ws else s.inC }

/-- The half-write a port still has to make (41_parameter_store.md R131, 10_state.md R56). -/
def State.half (s : State) : Port → Option RegWrite
  | .r => s.halfR
  | .c => s.halfC

/-- Replace the half-write of a port. -/
def State.setHalf (s : State) (p : Port) (h : Option RegWrite) : State :=
  { s with halfR := if p = .r then h else s.halfR, halfC := if p = .c then h else s.halfC }

/-- Signal the completion of a command on a port (30_encoding.md R101). -/
def State.complete (s : State) (p : Port) : State :=
  { s with
    doneR := if p = .r then s.doneR + 1 else s.doneR
    doneC := if p = .c then s.doneC + 1 else s.doneC }

/-- The response register of a port (10_state.md R48). -/
def State.response (s : State) : Port → Word
  | .r => s.respR
  | .c => s.respC

/-- Write a port's response register (30_encoding.md R101, R108). -/
def State.respond (s : State) (p : Port) (v : Word) : State :=
  { s with respR := if p = .r then v else s.respR, respC := if p = .c then v else s.respC }

/-! ### Faults (60_exceptions.md R260 to R263) -/

/-- The number of a fault code (60_exceptions.md R261). -/
def TrapCode.number : TrapCode → BitVec 8
  | .illegalCmd => 1
  | .notInit => 2
  | .badSr => 3
  | .chMismatch => 4
  | .chRange => 5
  | .capacity => 6
  | .frames => 7
  | .unwritten => 8
  | .badTime => 9

/-- Why a command or a micro-step gives no ordinary next state: a fault of the spec (60_exceptions.md R261), or a stop of
the model. -/
inductive Raise where
  | trap (code : TrapCode) (info : Word)
  | stop (f : Fault)
deriving DecidableEq, Repr

/-- Fault entry (60_exceptions.md R260): the fault registers are written, and nothing else changes. `p` is the port whose
command raised it; the datapath counts as port R. -/
def State.enterFault (s : State) (p : Port) (code : TrapCode) (info : Word) : State :=
  { s with
    faultCode := code.number
    faultInfo := info
    faultPort := if p = .c then 1 else 0 }

/-- FAULTED (60_exceptions.md R260): some fault is recorded. -/
def State.faulted (s : State) : Bool := s.faultCode != 0

/-- The end of a command or micro-step started in `s` by port `p`: its next state, or fault entry FROM `s`, so that a step
that raises a fault has no other effect (60_exceptions.md R260, R263). -/
def settle (p : Port) (s : State) (body : Except Raise State) : Answer :=
  match body with
  | .ok s' => .next s'
  | .error (.trap code info) => .next (s.enterFault p code info)
  | .error (.stop f) => .fault f

/-- One check of a command's or micro-step's pseudocode: `raise Fault(code, info)` unless `ok` (60_exceptions.md R262). -/
def require (ok : Bool) (code : TrapCode) (info : Word) : Except Raise Unit :=
  if ok then .ok () else .error (.trap code info)

/-- A command of port R only: on port C its word is illegal (30_encoding.md R101, R109). -/
def renderOnly (s : State) (o : Op) : Except Raise Unit := require (o.acceptedOn s.port) .illegalCmd o.pattern

/-- Move the sequencer (00_scope.md R18 `seq <-`); a PROCESS completes on port R when it becomes `IDLE` (44_render.md
R203). -/
def State.goto (s : State) (q : Seq) : State :=
  { s with seq := q, doneR := if q = .idle then s.doneR + 1 else s.doneR }

end Sys2Proof.Machine
end

