-- ==== Sys2Proof/Machine/Ieee.lean ====
section
/-! DEFINITION. The binary32 and binary64 arithmetic of 00_scope.md R16 and R17: each operation is exact on the operands'
values and rounded once, to nearest with ties to even. A finite value is held as a sign and a natural number of least
subnormals, so sums, products and quotients are exact integer arithmetic. The sign rules of zeros and infinities are IEEE
754's (log 20). -/

namespace Sys2Proof.Machine

/-- A binary interchange format: `frac` fraction bits and `expo` exponent bits. Its least subnormal is `2 ^ -unit`. -/
structure Format where
  frac : Nat
  expo : Nat
  unit : Nat
deriving DecidableEq, Repr

/-- binary32: least subnormal 2^-149. -/
def binary32 : Format := ⟨23, 8, 149⟩

/-- binary64: least subnormal 2^-1074. -/
def binary64 : Format := ⟨52, 11, 1074⟩

/-- The magnitude bits of infinity; larger magnitudes are NaNs. -/
def Format.infBits (f : Format) : Nat := (2 ^ f.expo - 1) * 2 ^ f.frac

/-- The weight of the sign bit. -/
def Format.signBit (f : Format) : Nat := 2 ^ (f.expo + f.frac)

/-- A floating-point datum: a finite value is `n` least subnormals of its format, with a sign. -/
inductive Datum where
  | nan
  | inf (neg : Bool)
  | fin (neg : Bool) (n : Nat)
deriving DecidableEq, Repr

/-- Read the pattern `bits` in a format. -/
def Format.datum (f : Format) (bits : Nat) : Datum :=
  let neg := decide (f.signBit ≤ bits)
  let mag := bits % f.signBit
  let e := mag / 2 ^ f.frac
  let m := mag % 2 ^ f.frac
  if f.infBits < mag then .nan
  else if mag = f.infBits then .inf neg
  else if e = 0 then .fin neg m
  else .fin neg ((2 ^ f.frac + m) * 2 ^ (e - 1))

/-- Round the quotient `num / d` to an integer, to nearest with ties to even. -/
def roundHalfEven (num d : Nat) : Nat :=
  let q := num / d
  let r := num % d
  if d < 2 * r ∨ (2 * r = d ∧ q % 2 = 1) then q + 1 else q

/-- The magnitude bits of the value `num / den` least subnormals (`den > 0`), rounded to nearest with ties to even, with
gradual underflow unless `ftz` and overflow to infinity (00_scope.md R16; log 11). -/
def Format.roundMag (f : Format) (ftz : Bool) (num den : Nat) : Nat :=
  let shift := Nat.log2 (num / den) - f.frac
  let mag := shift * 2 ^ f.frac + roundHalfEven num (den * 2 ^ shift)
  if f.infBits ≤ mag then f.infBits
  else if ftz = true ∧ mag < 2 ^ f.frac then 0
  else mag

/-- A sign and magnitude bits as a pattern. -/
def Format.pattern (f : Format) (neg : Bool) (mag : Nat) : Nat := (if neg then f.signBit else 0) + mag

/-- The value of a finite datum in least subnormals. -/
def signedUnits (neg : Bool) (n : Nat) : Int := if neg then -(n : Int) else (n : Int)

/-- IEEE addition; `none` is a NaN result. A zero sum is negative only if both addends are negative. -/
def Format.sum (f : Format) (ftz : Bool) : Datum → Datum → Option Nat
  | .nan, _ => none
  | .inf _, .nan => none
  | .inf s, .inf t => if s = t then some (f.pattern s f.infBits) else none
  | .inf s, .fin _ _ => some (f.pattern s f.infBits)
  | .fin _ _, .nan => none
  | .fin _ _, .inf t => some (f.pattern t f.infBits)
  | .fin s m, .fin t n =>
    let z := signedUnits s m + signedUnits t n
    if z = 0 then some (f.pattern (s && t) 0)
    else some (f.pattern (decide (z < 0)) (f.roundMag ftz z.natAbs 1))

/-- IEEE multiplication; `none` is a NaN result. -/
def Format.product (f : Format) (ftz : Bool) : Datum → Datum → Option Nat
  | .nan, _ => none
  | .inf _, .nan => none
  | .inf s, .inf t => some (f.pattern (s ^^ t) f.infBits)
  | .inf s, .fin t n => if n = 0 then none else some (f.pattern (s ^^ t) f.infBits)
  | .fin _ _, .nan => none
  | .fin s m, .inf t => if m = 0 then none else some (f.pattern (s ^^ t) f.infBits)
  | .fin s m, .fin t n => some (f.pattern (s ^^ t) (f.roundMag ftz (m * n) (2 ^ f.unit)))

/-- IEEE division; `none` is a NaN result. -/
def Format.quotient (f : Format) (ftz : Bool) : Datum → Datum → Option Nat
  | .nan, _ => none
  | .inf _, .nan => none
  | .inf _, .inf _ => none
  | .inf s, .fin t _ => some (f.pattern (s ^^ t) f.infBits)
  | .fin _ _, .nan => none
  | .fin s _, .inf t => some (f.pattern (s ^^ t) 0)
  | .fin s m, .fin t n =>
    if n = 0 then (if m = 0 then none else some (f.pattern (s ^^ t) f.infBits))
    else some (f.pattern (s ^^ t) (f.roundMag ftz (m * 2 ^ f.unit) n))

/-- Convert a datum of format `g` to format `f`; `none` is a NaN result. -/
def Format.convert (f g : Format) (ftz : Bool) : Datum → Option Nat
  | .nan => none
  | .inf s => some (f.pattern s f.infBits)
  | .fin s n => some (f.pattern s (f.roundMag ftz (n * 2 ^ f.unit) (2 ^ g.unit)))

/-- The binary32 NaN with the sign and payload of `x`; a zero payload becomes 1. Every NaN is some `x`'s. -/
def asNan32 (x : Word) : Word :=
  if (x &&& 0x007FFFFF#32) = 0 then x ||| 0x7F800001#32 else x ||| 0x7F800000#32

/-- The binary64 NaN with the sign and payload of `x`; a zero payload becomes 1. Every NaN is some `x`'s. -/
def asNan64 (x : Word64) : Word64 :=
  if (x &&& 0x000FFFFFFFFFFFFF#64) = 0 then x ||| 0x7FF0000000000001#64 else x ||| 0x7FF0000000000000#64

/-- FREE VALUE: the binary32 NaN of draw `d` (`NAN_DRAW`, 00_scope.md R13, R16; log 8). -/
def nan32 (d : Nat) : Word := asNan32 (Config.nanBits32 d)

/-- FREE VALUE: the binary64 NaN of draw `d` (`NAN_DRAW`, 00_scope.md R13, R16; log 8). -/
def nan64 (d : Nat) : Word64 := asNan64 (Config.nanBits64 d)

/-- The datum of a binary32 pattern. -/
def datum32 (x : Word) : Datum := binary32.datum x.toNat

/-- The datum of a binary64 pattern. -/
def datum64 (x : Word64) : Datum := binary64.datum x.toNat

/-- A binary32 result; a NaN takes the bits of draw `d`. -/
def result32 (d : Nat) : Option Nat → Word
  | none => nan32 d
  | some bits => BitVec.ofNat 32 bits

/-- A binary64 result; a NaN takes the bits of draw `d`. -/
def result64 (d : Nat) : Option Nat → Word64
  | none => nan64 d
  | some bits => BitVec.ofNat 64 bits

/-- `fl32(a + b)` (00_scope.md R16). -/
def add32 (ftz : Bool) (d : Nat) (a b : Word) : Word := result32 d (binary32.sum ftz (datum32 a) (datum32 b))

/-- `fl32(a − b)`: the sum with the sign of `b` turned. -/
def sub32 (ftz : Bool) (d : Nat) (a b : Word) : Word := add32 ftz d a (b ^^^ 0x80000000#32)

/-- `fl32(a * b)`. -/
def mul32 (ftz : Bool) (d : Nat) (a b : Word) : Word := result32 d (binary32.product ftz (datum32 a) (datum32 b))

/-- `fl64(a + b)`. -/
def add64 (ftz : Bool) (d : Nat) (a b : Word64) : Word64 := result64 d (binary64.sum ftz (datum64 a) (datum64 b))

/-- `fl64(a * b)`. -/
def mul64 (ftz : Bool) (d : Nat) (a b : Word64) : Word64 := result64 d (binary64.product ftz (datum64 a) (datum64 b))

/-- `fl64(a / b)`. -/
def div64 (ftz : Bool) (d : Nat) (a b : Word64) : Word64 := result64 d (binary64.quotient ftz (datum64 a) (datum64 b))

/-- `fl32(v)` of a binary64 `v`. -/
def narrow (ftz : Bool) (d : Nat) (v : Word64) : Word := result32 d (binary32.convert binary64 ftz (datum64 v))

/-- `w64(v)`: widening, exact; a NaN widens to a drawn NaN (00_scope.md R16). -/
def widen (d : Nat) (v : Word) : Word64 := result64 d (binary64.convert binary32 false (datum32 v))

/-- `isNaN` (00_scope.md R17) of a binary32 pattern. -/
def isNaN32 (x : Word) : Bool := datum32 x == .nan

/-- `isNaN` (00_scope.md R17) of a binary64 pattern. -/
def isNaN64 (x : Word64) : Bool := datum64 x == .nan

/-- The place of a pattern among the non-NaN values: −0 and +0 share 0, infinities are the ends. -/
def Format.rank (f : Format) (bits : Nat) : Int := signedUnits (decide (f.signBit ≤ bits)) (bits % f.signBit)

/-- `a < b` on binary32 patterns; false when either is a NaN. -/
def lt32 (a b : Word) : Bool :=
  !isNaN32 a && !isNaN32 b && decide (binary32.rank a.toNat < binary32.rank b.toNat)

/-- `a >= b` on binary32 patterns; false when either is a NaN. -/
def ge32 (a b : Word) : Bool :=
  !isNaN32 a && !isNaN32 b && decide (binary32.rank b.toNat ≤ binary32.rank a.toNat)

/-- `a < b` on binary64 patterns; false when either is a NaN. -/
def lt64 (a b : Word64) : Bool :=
  !isNaN64 a && !isNaN64 b && decide (binary64.rank a.toNat < binary64.rank b.toNat)

/-- `clampF(v, lo, hi)` (00_scope.md R17): a NaN is returned unchanged. -/
def clampF (v lo hi : Word64) : Word64 := if lt64 v lo then lo else if lt64 hi v then hi else v

/-- −v: the sign bit turned. -/
def neg64 (v : Word64) : Word64 := v ^^^ 0x8000000000000000#64

/-- +inf of binary64. -/
def posInf64 : Word64 := 0x7FF0000000000000

/-- `floor64(v)` (00_scope.md R17) of a finite `v` as an integer; 0 for a `v` that is not finite, which no rule asks for
(log 21). -/
def floor64 (v : Word64) : Int :=
  match datum64 v with
  | .nan => 0
  | .inf _ => 0
  | .fin neg n => Int.fdiv (signedUnits neg n) (2 ^ binary64.unit)

/-- An integer or an infinity: what `roundHA` returns (00_scope.md R17). -/
inductive RoundedValue where
  | minusInf
  | int (z : Int)
  | plusInf
deriving DecidableEq, Repr

/-- `roundHA(v)` (00_scope.md R17): nearest integer, halves away from zero, infinities kept; `none` for a NaN. -/
def roundHA (v : Word64) : Option RoundedValue :=
  match datum64 v with
  | .nan => none
  | .inf true => some .minusInf
  | .inf false => some .plusInf
  | .fin neg n => some (.int (signedUnits neg ((2 * n + 2 ^ binary64.unit) / (2 * 2 ^ binary64.unit))))

/-- `clampI(v, lo, hi)` (00_scope.md R17) for a rounded value. -/
def clampI (v : RoundedValue) (lo hi : Int) : Int :=
  match v with
  | .minusInf => lo
  | .plusInf => hi
  | .int z => if z < lo then lo else if hi < z then hi else z

end Sys2Proof.Machine
end

