-- ==== Sys2Proof/Machine/Operands.lean ====
section
/-! DEFINITION. The operand forms of the commands: parameter addresses (30_encoding.md R104, 10_state.md R35), reads of
registers with written marks (R46), and the conversions of 41_parameter_store.md R130. -/

namespace Sys2Proof.Machine

/-- The register a parameter address names (10_state.md R35). -/
inductive Param where
  | wide (r : Wide)
  | zeno
  | pingpong
  | freq
deriving DecidableEq, Repr

/-- The parameter at address `PA`; 7 to 15 name no register (30_encoding.md R104). -/
def paramAt (pa : BitVec 4) : Option Param :=
  match pa.toNat with
  | 0 => some (.wide .time)
  | 1 => some (.wide .dry)
  | 2 => some (.wide .wet)
  | 3 => some (.wide .feedback)
  | 4 => some .zeno
  | 5 => some .pingpong
  | 6 => some .freq
  | _ => none

/-- The register id a fault records: the parameter address (60_exceptions.md R261, row 8). -/
def Wide.id : Wide → Word
  | .time => 0
  | .dry => 1
  | .wet => 2
  | .feedback => 3

/-- Read a binary64 register; it faults if either half was never written (10_state.md R46). -/
def Reg64.read (x : Reg64) (id : Word) : Except Raise Word64 :=
  if x.loWritten = true ∧ x.hiWritten = true then .ok (joinWords x.lo x.hi) else .error (.trap .unwritten id)

/-- Read a 32-bit register; it faults if it was never written (10_state.md R46). -/
def Reg32.read (x : Reg32) (id : Word) : Except Raise Word :=
  if x.written = true then .ok x.val else .error (.trap .unwritten id)

/-- Read a 1-bit register; it faults if it was never written (10_state.md R46). -/
def Flag.read (x : Flag) (id : Word) : Except Raise Bool :=
  if x.written = true then .ok x.val else .error (.trap .unwritten id)

/-- What SETP stores in a binary64 register for the operand `v` (41_parameter_store.md R130, R135); draws `d`, `d + 1`. -/
def storedWide (c : Config) (d : Nat) (r : Wide) (v : Word) : Word64 :=
  match r with
  | .time => widen d v
  | .dry => div64 c.ftz (d + 1) (widen d v) c.pctScale
  | .wet => div64 c.ftz (d + 1) (widen d v) c.pctScale
  | .feedback => div64 c.ftz (d + 1) (widen d v) c.pctScale

/-- What GETP returns for a binary64 register holding `x` (41_parameter_store.md R130); draws `d`, `d + 1`. -/
def returnedWide (c : Config) (d : Nat) (r : Wide) (x : Word64) : Word :=
  match r with
  | .time => narrow c.ftz d x
  | .dry => narrow c.ftz (d + 1) (mul64 c.ftz d x c.pctScale)
  | .wet => narrow c.ftz (d + 1) (mul64 c.ftz d x c.pctScale)
  | .feedback => narrow c.ftz (d + 1) (mul64 c.ftz d x c.pctScale)

end Sys2Proof.Machine
end

