-- ==== Sys2Proof/Machine/Interface.lean ====
section
/-! DEFINITION. The interface commands INIT, DEINIT, SETBYP, GETBYP, SETMAXF, GETMAXF, EVENT and SETCTX
(45_interface.md). -/

namespace Sys2Proof.Machine

/-- The checks of INIT (45_interface.md R230, in the order of 60_exceptions.md R262): the capacity `CAP` (42_delay_line.md
R150) or the first fault. -/
def initCapacity (c : Config) (d : Nat) (inCh outCh : Word) (sr : Word64) : Except Raise Nat := do
  require (inCh == outCh) .chMismatch inCh
  require (lt64 0 sr && sr != posInf64) .badSr (highWord sr)
  let p := mul64 c.ftz d sr c.capSeconds
  require (p != posInf64) .capacity 0xFFFFFFFF
  let cap := (floor64 p).toNat
  require (decide (2 ≤ cap)) .badSr (highWord sr)
  require (decide (inCh.toNat ≤ c.maxCh)) .chRange inCh
  require (decide (inCh.toNat * cap ≤ c.dlmWords)) .capacity (BitVec.ofNat 32 cap)
  .ok cap

/-- What a successful INIT writes (45_interface.md R230, 70_reset_and_hazards.md R291): `SR`, `NCH`, `CAP`, the zero fill of
the words of the allocated lines (20_memory.md R71), every cursor and `INITD`. -/
def State.allocate (s : State) (inCh : Word) (sr : Word64) (cap : Nat) : State :=
  { s with
    sr := sr
    nch := inCh
    cap := cap
    dlm := s.dlm.zeroBelow (inCh.toNat * cap)
    wi := List.replicate inCh.toNat 0
    initd := true }

/-- INIT (45_interface.md R230). -/
def execInit (inCh outCh : Word) (sr : Word64) (s : State) : Answer :=
  settle s.port s do
    renderOnly s .init
    let cap ← initCapacity s.cfg s.draws inCh outCh sr
    .ok (((s.allocate inCh sr cap).drawn 1).complete s.port)

/-- DEINIT (45_interface.md R231): no effect. -/
def execDeinit (s : State) : Answer :=
  settle s.port s do
    renderOnly s .deinit
    .ok (s.complete s.port)

/-- Under `WEAK_VIS` a SETBYP of port C draws whether the port's GETBYPs see it while it is pending: the spec says so of
GETP (20_memory.md R86) and not of GETBYP (log 13). The draw is kept, so that a GETBYP repeated with no write between
answers the same (20_memory.md R80). -/
def State.drawBypassView (s : State) : State :=
  if s.port = .c ∧ s.cfg.weakVis = true then { s.choiceUsed with bypassAhead := decide (s.choice % 2 = 1) } else s

/-- SETBYP (45_interface.md R232). -/
def execSetbyp (b : Bool) (s : State) : Answer :=
  .next ((s.drawBypassView.issueWrite ⟨.bypass, bitWord b⟩).complete s.port)

/-- Whether a GETBYP of port C has a pending SETBYP of its own (20_memory.md R86). -/
def State.bypassPending (s : State) : Bool :=
  s.port == .c && s.cfg.weakVis && s.weakPend.any fun w => w.slot == .bypass

/-- `BYPASS` as a GETBYP sees it: with or without the port's pending SETBYPs, as the last of them drew (log 13). A read
changes nothing (20_memory.md R80). -/
def State.bypassView (s : State) : Flag :=
  if s.bypassPending = true ∧ s.bypassAhead = true then s.withPending.bypass else s.bypass

/-- GETBYP (45_interface.md R233). -/
def execGetbyp (s : State) : Answer :=
  settle s.port s do
    let b ← s.bypassView.read 16
    .ok ((s.respond s.port (bitWord b)).complete s.port)

/-- SETMAXF (45_interface.md R234). -/
def execSetmaxf (count : Word) (s : State) : Answer :=
  settle s.port s do
    renderOnly s .setmaxf
    .ok ({ s with maxf := ⟨count, true⟩ }.complete s.port)

/-- GETMAXF (45_interface.md R235). -/
def execGetmaxf (s : State) : Answer :=
  settle s.port s do
    renderOnly s .getmaxf
    let m ← s.maxf.read 17
    .ok ((s.respond s.port m).complete s.port)

/-- EVENT (45_interface.md R236): accepted and ignored. -/
def execEvent (_time : Word64) (_tag _payload0 _payload1 : Word) (s : State) : Answer :=
  settle s.port s do
    renderOnly s .event
    .ok (s.complete s.port)

/-- SETCTX (45_interface.md R237). -/
def execSetctx (handle : Word64) (s : State) : Answer :=
  settle s.port s do
    renderOnly s .setctx
    .ok ({ s with ctx := handle }.complete s.port)

end Sys2Proof.Machine
end

