-- ==== Sys2Proof/Machine/Flags.lean ====
section
/-! DEFINITION. The flags of revo-DL (10_state.md R59): how ZENO and PINGPONG are computed from an operand and read back,
and the ACTIVE latch. No command or micro-step sets a flag from an arithmetic result. -/

namespace Sys2Proof.Machine

/-- `toBool(v)` (41_parameter_store.md R133): false for either zero, true otherwise, NaN included. -/
def wordToBool (v : Word) : Bool := v != 0#32 && v != 0x80000000#32

/-- A flag as GETP returns it: 1.0 or +0.0 (41_parameter_store.md R130). -/
def flagValue (b : Bool) : Word := if b then 0x3F800000#32 else 0#32

/-- Whether ping-pong is active in a frame (43_oscillator.md R170). -/
def pingpongActive (pp : Bool) (pnch : Word) : Bool := pp && decide (2 ≤ pnch.toNat)

end Sys2Proof.Machine
end

