-- ==== Sys2Proof/Machine/Parameters.lean ====
section
/-! DEFINITION. The parameter store commands SETP and GETP (41_parameter_store.md). -/

namespace Sys2Proof.Machine

/-- The half-write events of `Write64` (41_parameter_store.md R131), in the order the choice `n` draws: an odd choice
writes the high half first. -/
def halvesOf (r : Wide) (x : Word64) (n : Nat) : RegWrite × RegWrite :=
  if n % 2 = 1 then (⟨.hi r, highWord x⟩, ⟨.lo r, lowWord x⟩) else (⟨.lo r, lowWord x⟩, ⟨.hi r, highWord x⟩)

/-- `Write64(r, x)` by the executing port (41_parameter_store.md R131). The first half is written now and the second is
left to the port's next event (10_state.md R56); on port C under `WEAK_VIS` both halves join the pending set
(20_memory.md R86) and the command completes. -/
def State.writeWide (s : State) (r : Wide) (x : Word64) : State :=
  if s.port = .c ∧ s.cfg.weakVis = true then
    ((s.issueWrite ⟨.lo r, lowWord x⟩).issueWrite ⟨.hi r, highWord x⟩).complete .c
  else
    (s.choiceUsed.applyWrite (halvesOf r x s.choice).1).setHalf s.port (some (halvesOf r x s.choice).2)

/-- The second half-write event of a SETP of port `p`; the command then completes (41_parameter_store.md R131, 10_state.md
R56). -/
def State.finishHalf (s : State) (p : Port) (w : RegWrite) : State := ((s.setHalf p none).applyWrite w).complete p

/-- SETP (41_parameter_store.md R131, R136). -/
def execSetp (pa : BitVec 4) (v : Word) (s : State) : Answer :=
  match paramAt pa with
  | some (.wide r) => .next ((s.drawn 2).writeWide r (storedWide s.cfg s.draws r v))
  | some .zeno => .next ((s.issueWrite ⟨.zeno, bitWord (wordToBool v)⟩).complete s.port)
  | some .pingpong => .next ((s.issueWrite ⟨.pingpong, bitWord (wordToBool v)⟩).complete s.port)
  | some .freq => .next ((s.issueWrite ⟨.freq, v⟩).complete s.port)
  | none => .next (s.complete s.port)

/-- The registers as a GETP of the executing port sees them: under `WEAK_VIS`, port C reads its own pending writes first
(20_memory.md R86). -/
def State.getpView (s : State) : State := if s.port = .c ∧ s.cfg.weakVis = true then s.withPending else s

/-- The response of GETP (41_parameter_store.md R132, R136), from the registers of `view`; draws `d`, `d + 1`. -/
def getpValue (view : State) (d : Nat) (pa : BitVec 4) : Except Raise Word :=
  match paramAt pa with
  | some (.wide r) => do
    let x ← (view.wide r).read r.id
    .ok (returnedWide view.cfg d r x)
  | some .zeno => do
    let b ← view.zeno.read 4
    .ok (flagValue b)
  | some .pingpong => do
    let b ← view.pingpong.read 5
    .ok (flagValue b)
  | some .freq => view.freq.read 6
  | none => .ok 0

/-- GETP (41_parameter_store.md R132, R136). -/
def execGetp (pa : BitVec 4) (s : State) : Answer :=
  settle s.port s do
    let v ← getpValue s.getpView s.draws pa
    .ok (((s.drawn 2).respond s.port v).complete s.port)

/-- One `WEAK_VIS` visibility event (20_memory.md R86): a pending write is chosen, and the oldest pending write of the
same register half is applied and leaves the set. -/
def State.applyPending (s : State) : State :=
  let n := if s.weakPend.length = 1 then 0 else s.choice % s.weakPend.length
  let t := if s.weakPend.length = 1 then s else s.choiceUsed
  match s.weakPend[n]? with
  | none => s
  | some w =>
    match s.weakPend.find? (fun x => x.slot = w.slot) with
    | none => s
    | some oldest => { t.applyWrite oldest with weakPend := s.weakPend.eraseP fun x => x.slot = w.slot }

end Sys2Proof.Machine
end

