-- ==== Sys2Proof/Machine/DelayLine.lean ====
section
/-! DEFINITION. The delay-line bank and tap selector (42_delay_line.md): the micro-operations DL_READ, DL_WRITE and
DL_ADVANCE, the capacity and the Zeno tap sequence. -/

namespace Sys2Proof.Machine

/-- The write cursor `WI[ch]` (10_state.md R51). -/
def State.cursor (s : State) (ch : Nat) : Nat := s.wi.getD ch 0

/-- The DLM index of `DL[ch][j]` (20_memory.md R71). -/
def State.lineIndex (s : State) (ch j : Nat) : Nat := ch * s.cap + j

/-- The tap index of DL_READ (42_delay_line.md R151). -/
def State.tapIndex (s : State) (ch off : Nat) : Nat := s.lineIndex ch ((s.cursor ch + s.cap - off) % s.cap)

/-- `DL_READ(ch, off)` (42_delay_line.md R151). A channel, offset or index outside its ranges, which no run forms, stops
the model (20_memory.md R78; log 16). -/
def dlRead (s : State) (ch off : Nat) : Except Raise Word :=
  if ch < s.nch.toNat ∧ 1 ≤ off ∧ off ≤ s.cap ∧ s.tapIndex ch off < s.cfg.dlmWords then
    .ok (s.dlm.read (s.tapIndex ch off))
  else .error (.stop .delayIndex)

/-- `DL_WRITE(ch, v)` (42_delay_line.md R152). -/
def dlWrite (s : State) (ch : Nat) (v : Word) : Except Raise State :=
  if ch < s.nch.toNat ∧ s.lineIndex ch (s.cursor ch) < s.cfg.dlmWords then
    .ok { s with dlm := s.dlm.write (s.lineIndex ch (s.cursor ch)) v }
  else .error (.stop .delayIndex)

/-- `DL_ADVANCE(ch)` (42_delay_line.md R153). -/
def dlAdvance (s : State) (ch : Nat) : State := { s with wi := s.wi.set ch ((s.cursor ch + 1) % s.cap) }

/-- The Zeno tap offsets `d, d div 2, d div 4, …` down to 1 (42_delay_line.md R157), at most `fuel` of them. -/
def zenoOffsets : Nat → Nat → List Nat
  | 0, _ => []
  | fuel + 1, d => if d = 0 then [] else d :: zenoOffsets fuel (d / 2)

/-- The Zeno tap sequence of a base delay `d >= 1`: `K = floor(log2 d) + 1` offsets (42_delay_line.md R157). -/
def zenoTaps (d : Nat) : List Nat := zenoOffsets (Nat.log2 d + 1) d

end Sys2Proof.Machine
end

