-- ==== Sys2Proof/Machine/Sine.lean ====
section
/-! DEFINITION. The oscillator's sine `SIN32` (00_scope.md R13, 43_oscillator.md R172): the reference instance, computed
in fixed point with 512 fraction bits and rounded once (log 10), and the uninterpreted instance (log 9). -/

namespace Sys2Proof.Machine

/-- Fraction bits of the fixed-point values below. -/
def sineBitsKept : Nat := 512

/-- π in units of 2^-512, rounded down. -/
def piFixed : Nat :=
  0x3243f6a8885a308d313198a2e03707344a4093822299f31d0082efa98ec4e6c89452821e638d01377be5466cf34e90c6cc0ac29b7c97c50dd3f84d5b5b5470917

/-- The alternating series `t − t·y²/((2k+2)(2k+3)) + …` of the sine, from its term number `k`, in units of 2^-512. -/
def sineSeries (ySquared : Nat) : Nat → Nat → Nat → Int
  | 0, _, _ => 0
  | fuel + 1, k, t =>
    (t : Int) - sineSeries ySquared fuel (k + 1) (t * ySquared / 2 ^ sineBitsKept / ((2 * k + 2) * (2 * k + 3)))

/-- The magnitude bits of the sine of an angle of `t` units of 2^-512 in `[0, π)`. -/
def sineMag (t : Nat) : Nat :=
  let s := (sineSeries (t * t / 2 ^ sineBitsKept) 80 0 t).toNat
  binary32.roundMag false (s * 2 ^ binary32.unit) (2 ^ sineBitsKept)

/-- The correctly rounded sine of a finite binary32 value of `n` least subnormals. -/
def sineReference (neg : Bool) (n : Nat) : Word :=
  let turn := n * 2 ^ (sineBitsKept - binary32.unit) % (2 * piFixed)
  let lower := decide (piFixed ≤ turn)
  let t := if lower then turn - piFixed else turn
  BitVec.ofNat 32 (binary32.pattern (neg ^^ lower) (sineMag t))

/-- A value in `[−1, 1]`: what is not one becomes `+0.0` (43_oscillator.md R172: the result is in `[−1, 1]`). -/
def withinUnit (y : Word) : Word := if y.toNat % binary32.signBit ≤ 0x3F800000 then y else 0#32

/-- `SIN32` (43_oscillator.md R172): a function of its argument alone, `+0.0` at `+0.0`, in `[−1, 1]` at every finite
argument, and a NaN at a NaN or an infinity. -/
def sineOf (u : SineUnit) (x : Word) : Word :=
  match datum32 x with
  | .nan => asNan32 (Config.sineBits x)
  | .inf _ => asNan32 (Config.sineBits x)
  | .fin neg n =>
    if x = 0#32 then 0#32
    else withinUnit (match u with
      | .reference => sineReference neg n
      | .uninterpreted => Config.sineBits x)

end Sys2Proof.Machine
end

