-- ==== Sys2Proof/Machine/Oscillator.lean ====
section
/-! DEFINITION. The modulation oscillator and the pan gains (43_oscillator.md). -/

namespace Sys2Proof.Machine

/-- `OSC_INC` (43_oscillator.md R171) from the value of `FREQ`; draws `d` to `d + 3`. -/
def oscInc (c : Config) (d : Nat) (freq : Word) (sr : Word64) : Word :=
  narrow c.ftz (d + 3) (div64 c.ftz (d + 2) (mul64 c.ftz (d + 1) c.twoPi64 (widen d freq)) sr)

/-- `OSC_PAN` (43_oscillator.md R172). -/
def oscPan (c : Config) (phase : Word) : Word := sineOf c.sine phase

/-- `OSC_ADVANCE(inc)` (43_oscillator.md R173): the new phase; draws `d`, `d + 1`. DESIGN CHOICE, unsafe: R171's corner case
says that an infinite `FREQ` leaves a NaN `PHASE`, R173's pseudocode gives an infinite one; the model follows R173 (log
22). -/
def oscAdvance (c : Config) (d : Nat) (phase inc : Word) : Word :=
  let p := add32 c.ftz d phase inc
  if ge32 p c.twoPi32 then sub32 c.ftz (d + 1) p c.twoPi32
  else if lt32 p 0 then add32 c.ftz (d + 1) p c.twoPi32
  else p

/-- `GAINS(pan)` of an active frame, left gain (43_oscillator.md R175); draws `d`, `d + 1`. -/
def leftGain (c : Config) (d : Nat) (pan : Word) : Word :=
  mul32 c.ftz (d + 1) (sub32 c.ftz d 0x3F800000 pan) c.panHalf

/-- `GAINS(pan)` of an active frame, right gain (43_oscillator.md R175); draws `d`, `d + 1`. -/
def rightGain (c : Config) (d : Nat) (pan : Word) : Word :=
  mul32 c.ftz (d + 1) (add32 c.ftz d 0x3F800000 pan) c.panHalf

/-- The gain of channel `ch` in the mix (43_oscillator.md R176). -/
def State.mixGain (s : State) (ch : Nat) : Word :=
  if s.active then (if ch = 0 then s.gl else s.gr) else 0x3F800000

end Sys2Proof.Machine
end

