-- ==== Sys2Proof/Machine/Render.lean ====
section
/-! DEFINITION. The render engine (44_render.md): PROCESS, whose execution is its BLOCK_BEGIN micro-step, and the
FRAME_BEGIN and CHSTEP micro-steps that the datapath runs after it. -/

namespace Sys2Proof.Machine

/-! ### BLOCK_BEGIN (44_render.md R191 to R193) -/

/-- The bypass copy of channels `[0, n)` of frame `i` (44_render.md R192). -/
def copyFrame (input : Memory) (i : Nat) : Nat → Memory → Memory
  | 0, out => out
  | n + 1, out => (copyFrame input i n out).write (sampleIndex n i) (input.read (sampleIndex n i))

/-- The bypass copy of frames `[0, f)` of `n` channels (44_render.md R192). -/
def copyBlock (input : Memory) (n : Nat) : Nat → Memory → Memory
  | 0, out => out
  | f + 1, out => copyFrame input f n (copyBlock input n f out)

/-- The base delay (44_render.md R193): `round(TIME * SR)` clamped to `[1, CAP − 1]`. A NaN product faults with the high
half of `TIME`. -/
def baseDelay (s : State) : Except Raise Nat := do
  let t ← s.time.read 0
  match (binary64.product s.cfg.ftz (datum64 t) (datum64 s.sr)).bind (fun bits => roundHA (BitVec.ofNat 64 bits)) with
  | none => .error (.trap .badTime (highWord t))
  | some r => .ok (clampI r 1 ((s.cap : Int) - 1)).toNat

/-- BLOCK_BEGIN (44_render.md R191). -/
def blockBegin (nIn nOut frames : Word) (s : State) : Except Raise State := do
  require s.initd .notInit 0x09000000
  require (nIn == nOut) .chMismatch nIn
  require (decide (nIn.toNat ≤ s.nch.toNat)) .chRange nIn
  let m ← s.maxf.read 17
  require (decide (frames.toNat ≤ m.toNat)) .frames frames
  let b ← s.bypass.read 16
  if b then
    .ok (({ s with
      pnch := nIn
      pf := frames
      outBuf := copyBlock s.inBuf nIn.toNat frames.toNat s.outBuf }).goto .idle)
  else do
    let d ← baseDelay s
    .ok (({ s with pnch := nIn, pf := frames, baseD := d }).goto (if 0 < frames.toNat then .frame 0 else .idle))

/-- PROCESS (44_render.md R190): it executes BLOCK_BEGIN; while `SEQ` is not `IDLE` the datapath runs the block's other
micro-steps. The block start time is used by nothing (R190). -/
def execProcess (nIn nOut frames : Word) (_startTime : Word64) (s : State) : Answer :=
  settle s.port s do
    renderOnly s .process
    blockBegin nIn nOut frames s

/-! ### FRAME_BEGIN (44_render.md R194) -/

/-- Where the sequencer goes when frame `i` is done (44_render.md R194, R202). -/
def State.afterFrame (s : State) (i : Nat) : Seq := if i + 1 < s.pf.toNat then .frame (i + 1) else .idle

/-- FRAME_BEGIN of frame `i` (44_render.md R194; 43_oscillator.md R170, R174, R177). -/
def frameBegin (i : Nat) (s : State) : Except Raise State := do
  let pp ← s.pingpong.read 5
  let next : Seq := if 0 < s.pnch.toNat then .chan i 0 else s.afterFrame i
  if pingpongActive pp s.pnch then do
    let freq ← s.freq.read 6
    let inc := oscInc s.cfg s.draws freq s.sr
    let pan := oscPan s.cfg s.phase
    .ok (({ s with
      active := true
      phase := oscAdvance s.cfg (s.draws + 4) s.phase inc
      gl := leftGain s.cfg (s.draws + 6) pan
      gr := rightGain s.cfg (s.draws + 8) pan }.drawn 10).goto next)
  else .ok (({ s with active := false, gl := 0x3F000000, gr := 0x3F000000 }).goto next)

/-! ### CHSTEP (44_render.md R195 to R202) -/

/-- What one of the two delay algorithms gives: `dOut`, and the value it writes into the delay line. -/
structure DelayResult where
  dOut : Word
  write : Word
deriving DecidableEq, Repr

/-- The value the standard algorithm writes (44_render.md R196), not clamped; draws `d` to `d + 4`. -/
def standardWrite (c : Config) (d : Nat) (input tap : Word) (fb : Word64) : Word :=
  narrow c.ftz (d + 4) (add64 c.ftz (d + 3) (widen d input) (mul64 c.ftz (d + 2) (widen (d + 1) tap) fb))

/-- The standard algorithm (44_render.md R196). -/
def standardPath (s : State) (d ch : Nat) (input : Word) (fb : Word64) : Except Raise DelayResult := do
  let tap ← dlRead s ch s.baseD
  .ok ⟨tap, standardWrite s.cfg d input tap fb⟩

/-- The Zeno tap sum (44_render.md R197) over the offsets still to read, with gain `g` and sum so far `echo`; three draws a
tap. -/
def zenoEcho (s : State) (ch : Nat) : List Nat → Nat → Word → Word → Except Raise Word
  | [], _, _, echo => .ok echo
  | off :: offs, d, g, echo => do
    let tap ← dlRead s ch off
    zenoEcho s ch offs (d + 3) (mul32 s.cfg.ftz (d + 2) g s.cfg.zenoDecay)
      (add32 s.cfg.ftz (d + 1) echo (mul32 s.cfg.ftz d tap g))

/-- The value the Zeno algorithm writes (44_render.md R198), clamped; draws `d` to `d + 4`. -/
def zenoWrite (c : Config) (d : Nat) (input echo : Word) : Word :=
  narrow c.ftz (d + 4)
    (clampF (add64 c.ftz (d + 3) (widen d input) (mul64 c.ftz (d + 2) (widen (d + 1) echo) c.zenoFb))
      (neg64 c.clampLim) c.clampLim)

/-- The Zeno algorithm (44_render.md R197, R198). -/
def zenoPath (s : State) (d ch : Nat) (input : Word) : Except Raise DelayResult := do
  let echo ← zenoEcho s ch (zenoTaps s.baseD) (d + 5) s.cfg.zenoG0 0
  .ok ⟨echo, zenoWrite s.cfg d input echo⟩

/-- The feedback gain of a CHSTEP (44_render.md R195): it is read only when the standard algorithm runs. -/
def State.feedbackFor (s : State) (z : Bool) : Except Raise Word64 := if z then .ok 0 else s.feedback.read 3

/-- The delay algorithm that `z` selects (44_render.md R195). -/
def delayPath (s : State) (d ch : Nat) (z : Bool) (input : Word) (fb : Word64) : Except Raise DelayResult :=
  if z then zenoPath s d ch input else standardPath s d ch input fb

/-- The mix (44_render.md R200); draws `d` to `d + 7`. -/
def mixOut (c : Config) (d : Nat) (input dOut : Word) (dry wet : Word64) (gain : Word) : Word :=
  narrow c.ftz (d + 7)
    (add64 c.ftz (d + 6) (mul64 c.ftz (d + 1) (widen d input) dry)
      (mul64 c.ftz (d + 5) (mul64 c.ftz (d + 3) (widen (d + 2) dOut) wet) (widen (d + 4) gain)))

/-- Where the sequencer goes after CHSTEP(i, ch) (44_render.md R202). -/
def State.afterChannel (s : State) (i ch : Nat) : Seq :=
  if ch + 1 < s.pnch.toNat then .chan i (ch + 1) else s.afterFrame i

/-- CHSTEP(i, ch) (44_render.md R195 to R202). Every register is read before anything is written (00_scope.md R20), in
the fault order of 60_exceptions.md R262. -/
def chStep (i ch : Nat) (s : State) : Except Raise State := do
  let z ← s.zeno.read 4
  let fb ← s.feedbackFor z
  let dry ← s.dry.read 1
  let wet ← s.wet.read 2
  let input := s.inBuf.read (sampleIndex ch i)
  let res ← delayPath s (s.draws + 8) ch z input fb
  let t ← dlWrite s ch res.write
  let out := mixOut s.cfg s.draws input res.dOut dry wet (s.mixGain ch)
  .ok (((dlAdvance { t with outBuf := s.outBuf.write (sampleIndex ch i) out } ch).drawn
    (13 + 3 * (zenoTaps s.baseD).length)).goto (s.afterChannel i ch))

/-- One micro-step of the datapath (44_render.md R190); in `IDLE` there is none. -/
def microStep (s : State) : Answer :=
  match s.seq with
  | .idle => .next s
  | .frame i => settle .r s (frameBegin i s)
  | .chan i ch => settle .r s (chStep i ch s)

end Sys2Proof.Machine
end

