-- ==== Sys2Proof/Machine/Dispatch.lean ====
section
/-! DEFINITION. One arm per command: the meaning of each row of spec/opcode_table.json. -/

namespace Sys2Proof.Machine

def exec (i : Instr) (s : State) : Host.Outcome State Fault Refusal :=
  match i with
  | .init inCh outCh sr => Sys2Proof.Machine.execInit inCh outCh sr s
  | .deinit => Sys2Proof.Machine.execDeinit s
  | .setbyp b => Sys2Proof.Machine.execSetbyp b s
  | .getbyp => Sys2Proof.Machine.execGetbyp s
  | .setp pa v => Sys2Proof.Machine.execSetp pa v s
  | .getp pa => Sys2Proof.Machine.execGetp pa s
  | .setmaxf count => Sys2Proof.Machine.execSetmaxf count s
  | .getmaxf => Sys2Proof.Machine.execGetmaxf s
  | .process nIn nOut frames startTime => Sys2Proof.Machine.execProcess nIn nOut frames startTime s
  | .event time tag payload0 payload1 => Sys2Proof.Machine.execEvent time tag payload0 payload1 s
  | .setctx handle => Sys2Proof.Machine.execSetctx handle s

end Sys2Proof.Machine
end

