-- ==== Sys2Proof/Machine/Ports.lean ====
section
/-! DEFINITION. Which agent moves next (20_memory.md R82 to R86), and the command a port accepts (30_encoding.md R100,
R101, R109). -/

namespace Sys2Proof.Machine

/-- Who can move: port R with the datapath, port C, or the visibility of a pending write (10_state.md R30, 20_memory.md
R86). -/
inductive Turn where
  | render
  | control
  | visibility
deriving DecidableEq, Repr

/-- The event an agent makes when it moves (20_memory.md R82). -/
inductive Event where
  /-- A micro-step of the datapath. -/
  | micro
  /-- The second half-write of a binary64 SETP of a port. -/
  | half (p : Port) (w : RegWrite)
  /-- The next command of a port, or its illegal command word. -/
  | command (p : Port)
  /-- A pending write becomes visible. -/
  | visibility
deriving DecidableEq, Repr

/-- What a port does with its delivered words. -/
inductive Accepted where
  /-- It waits for a command word or operand words (30_encoding.md R100). -/
  | wait
  /-- It raises `ILLEGAL_CMD` with the command word, which it has consumed, and no word after it (30_encoding.md R109). -/
  | illegal (w : Word) (rest : List Word)
  /-- It executes a command. -/
  | run (i : Instr) (rest : List Word)
deriving DecidableEq, Repr

/-- What port `p` does with the words `ws` (30_encoding.md R109, R112). -/
def acceptOn (p : Port) (ws : List Word) : Accepted :=
  match decodeOn p ws with
  | .ok (i, rest) => .run i rest
  | .error .truncated => .wait
  | .error .unassignedOpcode => .illegal (ws.headD 0) ws.tail
  | .error .reservedField => .illegal (ws.headD 0) ws.tail
  | .error .strayParameterAddress => .illegal (ws.headD 0) ws.tail
  | .error .strayImmediate => .illegal (ws.headD 0) ws.tail
  | .error .wrongPort => .illegal (ws.headD 0) ws.tail

/-- A port has a command, or an illegal word, to act on. -/
def State.portReady (s : State) (p : Port) : Bool := acceptOn p (s.queue p) != .wait

/-- Port R with the datapath can move: a micro-step, a half-write or a command is due (10_state.md R30). -/
def State.renderReady (s : State) : Bool := s.seq != .idle || s.halfR.isSome || s.portReady .r

/-- Port C can move: a half-write or a command is due. -/
def State.controlReady (s : State) : Bool := s.halfC.isSome || s.portReady .c

/-- The agents that can move. -/
def State.enabled (s : State) : List Turn :=
  (if s.renderReady then [Turn.render] else []) ++
    ((if s.controlReady then [Turn.control] else []) ++
      (if s.weakPend = [] then [] else [Turn.visibility]))

/-- The agent that moves, and the state after the choice: where several can, a choice of the run picks one, so that every
interleaving is possible (20_memory.md R82). `none` when the block waits (70_reset_and_hazards.md R290). -/
def State.pick (s : State) : Option (Turn × State) :=
  match s.enabled with
  | [] => none
  | [t] => some (t, s)
  | t :: u :: more => some ((t :: u :: more).getD (s.choice % (t :: u :: more).length) t, s.choiceUsed)

/-- The event of an agent: a SETP in progress is finished first, then the PROCESS in progress goes on, and only then is a
command accepted (20_memory.md R84). -/
def State.eventOf (s : State) : Turn → Event
  | .render =>
    match s.halfR with
    | some w => .half .r w
    | none => if s.seq = .idle then .command .r else .micro
  | .control =>
    match s.halfC with
    | some w => .half .c w
    | none => .command .c
  | .visibility => .visibility

/-- The state in which port `p` executes a command, its words taken. -/
def State.begin (s : State) (p : Port) (rest : List Word) : State := { s.setQueue p rest with port := p }

/-- Deliver `ws` on port R so that port R executes their command in the very next step: nothing else of port R or the
datapath is in progress, no fault is recorded, and the choice, where port C or a pending write could move too, is port
R's. -/
def State.deliver (s : State) (ws : List Word) : State :=
  let t := { s with inR := ws, seq := .idle, halfR := none, faultCode := 0 }
  if t.controlReady = true ∨ t.weakPend ≠ [] then { t with choices := 0 :: s.choices } else t

end Sys2Proof.Machine
end

