-- ==== Sys2Proof/Machine/Step.lean ====
section
/-! DEFINITION. One step of the machine: one atomic event of one agent (00_scope.md R20, 20_memory.md R82). -/

namespace Sys2Proof.Machine

/-- The next command of port `p`: its meaning, or the fault of an illegal command word (30_encoding.md R109). -/
def commandStep (p : Port) (s : State) : Host.Outcome State Fault Refusal :=
  match acceptOn p (s.queue p) with
  | .wait => .next s
  | .illegal w rest => .next ((s.setQueue p rest).enterFault p .illegalCmd w)
  | .run i rest => exec i (s.begin p rest)

/-- One event. -/
def eventStep (e : Event) (s : State) : Host.Outcome State Fault Refusal :=
  match e with
  | .micro => microStep s
  | .half p w => .next (s.finishHalf p w)
  | .command p => commandStep p s
  | .visibility => .next s.applyPending

/-- One step. A FAULTED block is stuck (60_exceptions.md R260, R264); a block no agent of which can move waits
(70_reset_and_hazards.md R290; log 15). -/
def step (s : State) : Host.Outcome State Fault Refusal :=
  if s.faulted then .fault .halted
  else
    match s.pick with
    | none => .next s
    | some (t, s') => eventStep (s'.eventOf t) s'

/-- `s` with the command whose bits are `w` delivered on port R, so that the very next step executes it (log 1). -/
def State.withFetchWord (s : State) (nbits w : Nat) : State := s.deliver (commandWords nbits w)

end Sys2Proof.Machine
end

