-- ==== Sys2Proof/Safety.lean ====
section
/-! DEFINITION. What claims about revo-DL are stated in: illegal command words as R109 lists them, final states, and the
invariant that every step keeps. -/

namespace Sys2Proof.Machine

/-- The command words that 30_encoding.md R109 calls illegal on a port, in its own words: an unassigned `OPC`, a non-zero
`RSV`, a `PA` on a command other than SETP and GETP, an `IMM16` bit other than bit 0 of SETBYP, or a port R command on
port C. -/
def illegalWord (p : Port) (w : Word) : Prop :=
  opcField w = 0x00 ∨ 0x0C ≤ opcField w ∨ rsvField w ≠ 0 ∨
    (paField w ≠ 0 ∧ opcField w ≠ 0x05 ∧ opcField w ≠ 0x06) ∨
    (opcField w = 0x03 ∧ immField w &&& 0xFFFE ≠ 0) ∨ (opcField w ≠ 0x03 ∧ immField w ≠ 0) ∨
    (p = .c ∧ opcField w ≠ 0x03 ∧ opcField w ≠ 0x04 ∧ opcField w ≠ 0x05 ∧ opcField w ≠ 0x06)

/-- A final state (70_reset_and_hazards.md R293): `SEQ = IDLE`, neither port has a command in progress or a word received,
nothing is pending, and no fault is recorded. -/
def State.final (s : State) : Bool :=
  s.seq == .idle && s.halfR == none && s.halfC == none && s.weakPend == [] && s.inR == [] && s.inC == [] &&
    s.faultCode == 0

/-- A write event of one half of a binary64 register (10_state.md R56). -/
def Slot.isHalf : Slot → Bool
  | .lo _ => true
  | .hi _ => true
  | .zeno => false
  | .pingpong => false
  | .freq => false
  | .bypass => false

/-- The sequencer's frame and channel lie in the block of `pnch` channels and `pf` frames (10_state.md R53). -/
def Seq.inBlock (q : Seq) (pnch pf : Nat) : Bool :=
  match q with
  | .idle => true
  | .frame i => decide (i < pf)
  | .chan i ch => decide (i < pf) && decide (ch < pnch)

/-- The invariant of the machine: what the spec says holds of every state of a run. -/
structure State.Inv (s : State) : Prop where
  /-- 00_scope.md R11. -/
  sizes : s.cfg.wf
  /-- The memories are in their one form. -/
  dlmForm : s.dlm.wf
  inForm : s.inBuf.wf
  outForm : s.outBuf.wf
  /-- `DLM` has `DLM_WORDS` words (20_memory.md R71). -/
  dlmRange : ∀ c ∈ s.dlm, c.1 < s.cfg.dlmWords
  /-- 10_state.md R34: `NCH * CAP <= DLM_WORDS`. -/
  linesFit : s.nch.toNat * s.cap ≤ s.cfg.dlmWords
  /-- 10_state.md R51: one cursor per delay line, each in `[0, CAP)`. -/
  cursorCount : s.wi.length = s.nch.toNat
  cursorRange : ∀ c ∈ s.wi, c < s.cap
  /-- 10_state.md R34: `2 <= CAP` after an INIT. -/
  capacity : s.initd = true → 2 ≤ s.cap
  /-- 10_state.md R50: no delay line before an INIT. -/
  noLines : s.initd = false → s.nch = 0
  /-- 10_state.md R53. -/
  seqRange : s.seq.inBlock s.pnch.toNat s.pf.toNat = true
  /-- 44_render.md R191 and R193: a block runs on allocated channels, with `BASE_D` in `[1, CAP − 1]`. -/
  blockFits : s.seq ≠ .idle → s.initd = true ∧ s.pnch.toNat ≤ s.nch.toNat ∧ 1 ≤ s.baseD ∧ s.baseD + 1 ≤ s.cap
  /-- 20_memory.md R84: no SETP is in progress on port R while a PROCESS is. -/
  oneCommand : s.seq ≠ .idle → s.halfR = none
  /-- 10_state.md R56: what a port has pending is a half of a binary64 register. -/
  halfR : ∀ w, s.halfR = some w → w.slot.isHalf = true
  halfC : ∀ w, s.halfC = some w → w.slot.isHalf = true
  /-- 20_memory.md R86: the pending set is `WEAK_VIS`'s. -/
  strongOrder : s.cfg.weakVis = false → s.weakPend = []
  /-- 60_exceptions.md R261: codes 10 to 255 are never recorded. -/
  faultCodes : s.faultCode.toNat ≤ 9

/-- The registers the micro-steps of a block read are written: those a CHSTEP and a FRAME_BEGIN of this block read
(70_reset_and_hazards.md R292, step 3). -/
def State.blockRegistersWritten (s : State) : Bool :=
  s.zeno.written && s.pingpong.written && s.dry.loWritten && s.dry.hiWritten && s.wet.loWritten && s.wet.hiWritten &&
    (s.zeno.val || (s.feedback.loWritten && s.feedback.hiWritten)) &&
    (!pingpongActive s.pingpong.val s.pnch || s.freq.written)

/-- Port C has nothing to do: no half-write, no command, no pending write. -/
def State.controlQuiet (s : State) : Bool := !s.controlReady && s.weakPend == []

end Sys2Proof.Machine
end

