-- ==== Sys2Proof/Certificates/Slice0/Obligations.lean ====
section
/-! DEFINITION. The statements about revo-DL: what each command does and leaves alone, the micro-steps of a block, the
ports, and the rules of the whole machine. A statement about a free value holds for every value of it. -/

open Sys2Proof Sys2Proof.Machine

/-! ### Words the statements share -/

namespace Sys2Proof.Claims

/-- The state in which the executing port has signalled the completion of its command, and nothing else has changed. -/
def completed (s : State) : State :=
  { s with
    doneR := if s.port = .r then s.doneR + 1 else s.doneR
    doneC := if s.port = .c then s.doneC + 1 else s.doneC }

/-- The state in which the executing port has its response `v` and has signalled completion. -/
def answered (s : State) (v : Word) : State :=
  { completed s with
    respR := if s.port = .r then v else s.respR
    respC := if s.port = .c then v else s.respC }

/-- Fault entry as 60_exceptions.md R260 writes it: the three fault registers, and nothing else. -/
def faultedWith (s : State) (p : Port) (code : BitVec 8) (info : Word) : State :=
  { s with faultCode := code, faultInfo := info, faultPort := if p = .c then 1 else 0 }

/-- The executing port writes registers at once: it is port R, or `WEAK_VIS` is false (20_memory.md R85, R86). -/
def writesAtOnce (s : State) : Prop := s.port = .r ∨ s.cfg.weakVis = false

/-- Both halves of a binary64 register are written (10_state.md R46). -/
def bothWritten (x : Reg64) : Prop := x.loWritten = true ∧ x.hiWritten = true

/-- The value of finite magnitude bits, in least subnormals of the format. -/
def unitsOf (f : Format) (mag : Nat) : Nat :=
  if mag < 2 ^ f.frac then mag else (2 ^ f.frac + mag % 2 ^ f.frac) * 2 ^ (mag / 2 ^ f.frac - 1)

/-- The sign bit of a pattern. -/
def negative (f : Format) (bits : Nat) : Bool := decide (bits / 2 ^ (f.expo + f.frac) % 2 = 1)

/-- The magnitude bits of a pattern. -/
def magOf (f : Format) (bits : Nat) : Nat := bits % 2 ^ (f.expo + f.frac)

/-- The value of a finite pattern, in least subnormals of the format. -/
def valueOf (f : Format) (bits : Nat) : Int :=
  if negative f bits then -(unitsOf f (magOf f bits) : Int) else unitsOf f (magOf f bits)

/-- The pattern of `num / den` least subnormals with a sign, rounded once. -/
def rounded (f : Format) (ftz neg : Bool) (num den : Nat) : Nat :=
  (if neg then 2 ^ (f.expo + f.frac) else 0) + f.roundMag ftz num den

/-- How far the finite value of magnitude bits `mag` is from `num / den` least subnormals, times `den`. -/
def distance (f : Format) (num den mag : Nat) : Nat := ((unitsOf f mag * den : Nat) - (num : Int)).natAbs

/-- The micro-steps a block of the state's `PF` and `PNCH` still has at its first frame (44_render.md R204). -/
def blockSteps (s : State) : Nat := s.pf.toNat * (1 + s.pnch.toNat)

/-- The mix as 44_render.md R200 writes it: the products from left to right, each binary64 operation rounded once, the sum
rounded to binary32. -/
def mixed (s : State) (input dOut gain : Word) : Word :=
  narrow s.cfg.ftz (s.draws + 7) (add64 s.cfg.ftz (s.draws + 6)
    (mul64 s.cfg.ftz (s.draws + 1) (widen s.draws input) (joinWords s.dry.lo s.dry.hi))
    (mul64 s.cfg.ftz (s.draws + 5)
      (mul64 s.cfg.ftz (s.draws + 3) (widen (s.draws + 2) dOut) (joinWords s.wet.lo s.wet.hi))
      (widen (s.draws + 4) gain)))

end Sys2Proof.Claims

open Sys2Proof.Claims

/-! ### Encoding -/

/-- Every command decodes from its words on every port that accepts it, whatever words follow (30_encoding.md R100 to
R112). -/
def Obligations.EncodeThenDecode : Prop :=
  ∀ (p : Port) (i : Instr) (rest : List Word), i.wellFormed p = true → decodeOn p (encode i ++ rest) = .ok (i, rest)

/-- The decoder takes exactly the words of the command it gives, and gives only commands the port accepts. -/
def Obligations.DecodeThenEncode : Prop :=
  ∀ (p : Port) (ws : List Word) (i : Instr) (rest : List Word),
    decodeOn p ws = .ok (i, rest) → ws = encode i ++ rest ∧ i.wellFormed p = true

/-- 30_encoding.md R103: at most one row matches any word. -/
def Obligations.AtMostOneRowMatchesAWord : Prop :=
  ∀ (w : Word) (o o' : Op), o.selects w = true → o'.selects w = true → o = o'

/-- 30_encoding.md R109: an illegal command word raises `ILLEGAL_CMD` with that word, has no other effect, and no word
after it is consumed; every other word is a command, at once or when its operand words have arrived. That the illegal word
itself leaves the queue is the model's reading (log 18). -/
def Obligations.IllegalWordsFaultAndConsumeNoOperand : Prop :=
  ∀ (p : Port) (s : State) (w : Word) (rest : List Word), s.queue p = w :: rest →
    (illegalWord p w → commandStep p s = .next (faultedWith (s.setQueue p rest) p 1 w)) ∧
      (¬illegalWord p w →
        acceptOn p (w :: rest) = .wait ∨ ∃ (i : Instr) (more : List Word), acceptOn p (w :: rest) = .run i more)

/-- Words written out from 30_encoding.md R116, every row of it, and the parameter addresses of R104; SETBYP 1 on port C
too. -/
def Obligations.SpecExampleWordsDecode : Prop :=
  decodeOn .r [0x01000000, 1, 1, 0, 0x40E58880] = .ok (.init 1 1 0x40E5888000000000, []) ∧
    decodeOn .r [0x05100000, 0x42C80000] = .ok (.setp 1 0x42C80000, []) ∧
    decodeOn .r [0x05000000, 0x3C23D70A] = .ok (.setp 0 0x3C23D70A, []) ∧
    decodeOn .r [0x06600000] = .ok (.getp 6, []) ∧
    decodeOn .r [0x03000001] = .ok (.setbyp true, []) ∧ decodeOn .c [0x03000001] = .ok (.setbyp true, []) ∧
    decodeOn .r [0x07000000, 0x3E8] = .ok (.setmaxf 1000, []) ∧
    decodeOn .r [0x09000000, 1, 1, 0x3E8, 0, 0] = .ok (.process 1 1 1000 0, []) ∧
    decodeOn .c [0x05900000, 0x3F800000] = .ok (.setp 9 0x3F800000, []) ∧
    decodeOn .c [0x01000000] = .error .wrongPort ∧
    paramAt 0 = some (.wide .time) ∧ paramAt 1 = some (.wide .dry) ∧ paramAt 2 = some (.wide .wet) ∧
    paramAt 3 = some (.wide .feedback) ∧ paramAt 4 = some .zeno ∧ paramAt 5 = some .pingpong ∧ paramAt 6 = some .freq

/-! ### Steps, ports and faults -/

/-- When the agent that moves is a port whose words decode to a command, the step is that command's meaning, in the state
after the choice of the agent, with the command's words consumed and the port recorded as the executing one. -/
def Obligations.StepRunsDecodedCommand : Prop :=
  ∀ (s s' : State) (t : Turn) (p : Port) (i : Instr) (rest : List Word),
    s.faulted = false → s.pick = some (t, s') → s'.eventOf t = .command p → decodeOn p (s'.queue p) = .ok (i, rest) →
      step s = exec i { s' with
        inR := if p = .r then rest else s'.inR
        inC := if p = .c then rest else s'.inC
        port := p }

/-- 20_memory.md R82, R84, R86: what a step is, by the agent that moves, in the state after the choice of the agent. A SETP
in progress on a port is finished by the port's next event; the datapath, which moves with port R, runs the micro-step of
the block in progress; a pending write becomes visible; and otherwise the port acts on its next words, whether they are a
command or an illegal word. -/
def Obligations.StepMakesThePendingEvent : Prop :=
  ∀ (s s' : State) (t : Turn), s.faulted = false → s.pick = some (t, s') →
    (∀ w, t = .render → s'.halfR = some w → step s = .next (s'.finishHalf .r w)) ∧
    (t = .render → s'.halfR = none → s'.seq ≠ .idle → step s = microStep s') ∧
    (t = .render → s'.halfR = none → s'.seq = .idle → step s = commandStep .r s') ∧
    (∀ w, t = .control → s'.halfC = some w → step s = .next (s'.finishHalf .c w)) ∧
    (t = .control → s'.halfC = none → step s = commandStep .c s') ∧
    (t = .visibility → step s = .next s'.applyPending)

/-- The model's choice (log 1): `withFetchWord` stands for the delivery of one command on port R, made ready by an idle
sequencer, no half-write and no recorded fault, and the very next step executes that command with its words consumed. Of
the spec are the words of the command (30_encoding.md R100, R112) only. -/
def Obligations.DeliveredCommandRunsNext : Prop :=
  ∀ (s : State) (nbits w : Nat) (i : Instr), decodeTableWord nbits w = some i →
    ∃ d, (d = s.draws ∨ d = s.draws + 1) ∧
      step (s.withFetchWord nbits w) =
        exec i { s with inR := [], seq := .idle, halfR := none, faultCode := 0, port := .r, draws := d }

/-- 60_exceptions.md R260: a raised fault has no effect but the fault registers; the block is then FAULTED, no further
step is possible, and the state is not final. That a step of a FAULTED block stops with `halted`, `WEAK_VIS` writes pending
or not, is the model's reading (log 14). -/
def Obligations.FaultEntryRecordsAndHalts : Prop :=
  ∀ (p : Port) (s : State) (e : TrapCode) (v : Word),
    settle p s (.error (.trap e v)) = .next (faultedWith s p e.number v) ∧
      step (faultedWith s p e.number v) = .fault .halted ∧ (faultedWith s p e.number v).final = false

/-- A final state (70_reset_and_hazards.md R293) has nothing to do: a step leaves it as it is. That a block with nothing
to do takes a step to itself is the model's reading (log 15). -/
def Obligations.FinalStateKeepsStill : Prop :=
  ∀ s : State, s.final = true → step s = .next s

/-- 20_memory.md R82: any agent that can move may be the next to move. -/
def Obligations.AnyEnabledAgentMayMove : Prop :=
  ∀ (s : State) (t : Turn), t ∈ s.enabled →
    ∃ (n : Nat) (s' : State), { s with choices := n :: s.choices }.pick = some (t, s')

/-- The values 10_state.md R60 gives after power-on reset, for any parameters, and that the block then waits. Nothing is
said of the registers that are unwritten there (log 7). That waiting is a step of the block to itself is the model's
choice (log 15). -/
def Obligations.ResetLeavesTheStatedValues : Prop :=
  ∀ c : Config, ∃ s : State, s = State.resetWith c ∧ s.cfg = c ∧
    s.initd = false ∧ s.nch = 0 ∧ s.cap = 0 ∧ s.wi = [] ∧ s.phase = 0 ∧ s.seq = .idle ∧
    (∀ r : Wide, (s.wide r).loWritten = false ∧ (s.wide r).hiWritten = false) ∧
    s.zeno.written = false ∧ s.pingpong.written = false ∧ s.freq.written = false ∧ s.bypass.written = false ∧
    s.maxf.written = false ∧ s.faultCode = 0 ∧ s.faultInfo = 0 ∧ s.faultPort = 0 ∧
    s.halfR = none ∧ s.halfC = none ∧ s.weakPend = [] ∧ s.inR = [] ∧ s.inC = [] ∧ step s = .next s

/-! ### The invariant and rules of the whole machine -/

/-- The invariant holds after power-on reset, for every choice of the two sizes that 00_scope.md R11 admits. -/
def Obligations.InvariantHoldsAtReset : Prop :=
  ∀ c : Config, c.wf → (State.resetWith c).Inv

/-- Every step, of any agent, from any state that meets the invariant leads to one that meets it: memories in their one
form, `NCH * CAP <= DLM_WORDS`, cursors in range, the sequencer inside its block, `BASE_D` in `[1, CAP − 1]`. -/
def Obligations.EveryStepKeepsInvariant : Prop :=
  ∀ s t : State, s.Inv → step s = .next t → t.Inv

/-- 20_memory.md R78: every DLM index the datapath forms is in range, so a step of a block that is not FAULTED never
stops. -/
def Obligations.UnfaultedStepGoesOn : Prop :=
  ∀ s : State, s.Inv → s.faulted = false → ∃ t, step s = .next t

/-- No step changes the implementation's parameters, and the block only reads `IN` (20_memory.md R73). -/
def Obligations.StepKeepsConfigAndInput : Prop :=
  ∀ s t : State, step s = .next t → t.cfg = s.cfg ∧ t.inBuf = s.inBuf

/-- 60_exceptions.md R260 and R263: a command or micro-step after which a fault is recorded changed nothing but the fault
registers. -/
def Obligations.FaultingStepHasNoOtherEffect : Prop :=
  (∀ (i : Instr) (s t : State), s.faulted = false → exec i s = .next t → t.faulted = true →
      ∃ (e : TrapCode) (v : Word), t = faultedWith s s.port e.number v) ∧
    ∀ s t : State, s.faulted = false → microStep s = .next t → t.faulted = true →
      ∃ (e : TrapCode) (v : Word), t = faultedWith s .r e.number v

/-- 10_state.md R46: no step clears a written mark. -/
def Obligations.WrittenMarksNeverClear : Prop :=
  ∀ s t : State, step s = .next t →
    (∀ r : Wide, ((s.wide r).loWritten = true → (t.wide r).loWritten = true) ∧
      ((s.wide r).hiWritten = true → (t.wide r).hiWritten = true)) ∧
    (s.zeno.written = true → t.zeno.written = true) ∧ (s.pingpong.written = true → t.pingpong.written = true) ∧
    (s.freq.written = true → t.freq.written = true) ∧ (s.bypass.written = true → t.bypass.written = true) ∧
    (s.maxf.written = true → t.maxf.written = true)

/-- 10_state.md R52: only the FRAME_BEGIN of a frame in which ping-pong is active writes `PHASE`. -/
def Obligations.PhaseMovesOnlyInActiveFrames : Prop :=
  ∀ s t : State, step s = .next t → t.phase ≠ s.phase →
    (∃ i, s.seq = .frame i) ∧ t.active = true ∧ s.pingpong.val = true ∧ 2 ≤ s.pnch.toNat

/-- 60_exceptions.md R272: the datapath alone owns the delay lines, the cursors, `PHASE`, the sequencer and the latches,
and a command of port C writes none of them, nor a register of port R. -/
def Obligations.ControlPortLeavesDatapathAlone : Prop :=
  ∀ (i : Instr) (s t : State), s.port = .c → exec i s = .next t →
    t.dlm = s.dlm ∧ t.wi = s.wi ∧ t.phase = s.phase ∧ t.seq = s.seq ∧ t.pnch = s.pnch ∧ t.pf = s.pf ∧
    t.baseD = s.baseD ∧ t.active = s.active ∧ t.gl = s.gl ∧ t.gr = s.gr ∧ t.outBuf = s.outBuf ∧
    t.initd = s.initd ∧ t.sr = s.sr ∧ t.nch = s.nch ∧ t.cap = s.cap ∧ t.maxf = s.maxf ∧ t.ctx = s.ctx ∧
    t.respR = s.respR ∧ t.halfR = s.halfR ∧ t.inR = s.inR ∧ t.doneR = s.doneR

/-- A micro-step writes no register of 10_state.md R31 to R48 that a command writes, and consumes and pends nothing on
either port; all it does on a port is to signal, on port R, the completion of the PROCESS whose last micro-step it is
(44_render.md R203). -/
def Obligations.MicroStepWritesNoRegister : Prop :=
  ∀ s t : State, microStep s = .next t →
    (∀ r : Wide, t.wide r = s.wide r) ∧ t.zeno = s.zeno ∧ t.pingpong = s.pingpong ∧ t.freq = s.freq ∧
    t.bypass = s.bypass ∧ t.maxf = s.maxf ∧ t.ctx = s.ctx ∧ t.respR = s.respR ∧ t.respC = s.respC ∧
    t.initd = s.initd ∧ t.sr = s.sr ∧ t.nch = s.nch ∧ t.cap = s.cap ∧ t.pnch = s.pnch ∧ t.pf = s.pf ∧
    t.baseD = s.baseD ∧ t.halfR = s.halfR ∧ t.halfC = s.halfC ∧ t.weakPend = s.weakPend ∧ t.inR = s.inR ∧
    t.inC = s.inC ∧ t.doneR = (if s.seq ≠ .idle ∧ t.seq = .idle then s.doneR + 1 else s.doneR) ∧ t.doneC = s.doneC ∧
    t.inBuf = s.inBuf ∧ t.bypassAhead = s.bypassAhead ∧ t.choices = s.choices

/-- 30_encoding.md R101, R109: a command that port C does not accept raises `ILLEGAL_CMD` there. A step never reaches this,
since the decoder refuses the word first: that the meaning itself raises the same fault is the model's reading (log
18). -/
def Obligations.RenderCommandOnControlPortIsIllegal : Prop :=
  ∀ (i : Instr) (s : State), s.port = .c → i.wellFormed .c = false →
    exec i s = .next (faultedWith s .c 1 (commandWord i))

/-! ### INIT -/

/-- 45_interface.md R230, 70_reset_and_hazards.md R291: what INIT leaves when none of its checks fails. Every word of the
allocated lines reads +0.0, every other word of `DLM` as before, and nothing but `SR`, `NCH`, `CAP`, `DLM`, `WI` and
`INITD` changes. -/
def Obligations.InitAllocatesSilentLines : Prop :=
  ∀ (n : Word) (sr p : Word64) (cap : Nat) (s : State),
    s.port = .r → lt64 0 sr = true → sr ≠ posInf64 → p = mul64 s.cfg.ftz s.draws sr s.cfg.capSeconds → p ≠ posInf64 →
    cap = (floor64 p).toNat → 2 ≤ cap → n.toNat ≤ s.cfg.maxCh → n.toNat * cap ≤ s.cfg.dlmWords →
    ∃ t, exec (.init n n sr) s = .next t ∧
      t.sr = sr ∧ t.nch = n ∧ t.cap = cap ∧ t.initd = true ∧ t.wi = List.replicate n.toNat 0 ∧
      (∀ a, t.dlm.read a = if a < n.toNat * cap then 0 else s.dlm.read a) ∧
      t = { s with
        sr := t.sr, nch := t.nch, cap := t.cap, initd := t.initd, wi := t.wi, dlm := t.dlm
        doneR := s.doneR + 1, draws := t.draws }

/-- 45_interface.md R230 with the order of 60_exceptions.md R262: the first check that fails decides INIT's fault, and
nothing but the fault registers changes. -/
def Obligations.InitFaultsInOrder : Prop :=
  ∀ (a b : Word) (sr p : Word64) (cap : Nat) (s : State) (code : BitVec 8) (info : Word),
    s.port = .r → p = mul64 s.cfg.ftz s.draws sr s.cfg.capSeconds → cap = (floor64 p).toNat →
    (if a ≠ b then some ((4 : BitVec 8), a)
      else if lt64 0 sr = false ∨ sr = posInf64 then some (3, highWord sr)
      else if p = posInf64 then some (6, 0xFFFFFFFF)
      else if cap < 2 then some (3, highWord sr)
      else if s.cfg.maxCh < a.toNat then some (5, a)
      else if s.cfg.dlmWords < a.toNat * cap then some (6, BitVec.ofNat 32 cap)
      else none) = some (code, info) →
    exec (.init a b sr) s = .next (faultedWith s .r code info)

/-! ### The other interface commands -/

/-- 45_interface.md R231 and R236: DEINIT and EVENT have no effect but their completion. -/
def Obligations.DeinitAndEventOnlyComplete : Prop :=
  ∀ s : State, s.port = .r →
    exec .deinit s = .next { s with doneR := s.doneR + 1 } ∧
      ∀ (t : Word64) (tag a b : Word), exec (.event t tag a b) s = .next { s with doneR := s.doneR + 1 }

/-- 45_interface.md R234 and R237: SETMAXF writes `MAXF` and its mark, SETCTX writes `CTX`, and nothing else changes. -/
def Obligations.SetmaxfAndSetctxStoreTheirOperand : Prop :=
  ∀ s : State, s.port = .r →
    (∀ n : Word, exec (.setmaxf n) s = .next { s with maxf := ⟨n, true⟩, doneR := s.doneR + 1 }) ∧
      ∀ h : Word64, exec (.setctx h) s = .next { s with ctx := h, doneR := s.doneR + 1 }

/-- 45_interface.md R235: GETMAXF answers `MAXF`, or faults if it was never written. -/
def Obligations.GetmaxfAnswersTheBound : Prop :=
  ∀ s : State, s.port = .r →
    (s.maxf.written = true → exec .getmaxf s = .next { s with respR := s.maxf.val, doneR := s.doneR + 1 }) ∧
      (s.maxf.written = false → exec .getmaxf s = .next (faultedWith s .r 8 17))

/-- 45_interface.md R232: SETBYP writes `BYPASS` and its mark in one event; on port C under `WEAK_VIS` the event is pending
(20_memory.md R86). That the command then completes at once, and draws whether the port's GETBYPs see it while it is
pending, is the model's choice (log 13). -/
def Obligations.SetbypStoresTheFlag : Prop :=
  ∀ (b : Bool) (s : State),
    (writesAtOnce s → exec (.setbyp b) s = .next { completed s with bypass := ⟨b, true⟩ }) ∧
      (s.port = .c → s.cfg.weakVis = true →
        exec (.setbyp b) s = .next { completed s with
          weakPend := s.weakPend ++ [⟨.bypass, if b then 1 else 0⟩]
          bypassAhead := decide (s.choice % 2 = 1), choices := s.choices.tail, draws := s.draws + 1 })

/-- 45_interface.md R233: GETBYP answers `BYPASS` on the port that executes it, or faults if it was never written, and a
GETBYP repeated at once answers the same (20_memory.md R80). With a SETBYP of its own still pending on port C, it sees
`BYPASS` with or without its pending writes, as that SETBYP drew: the spec does not say which, so this is the model's
choice (log 13). -/
def Obligations.GetbypAnswersTheFlag : Prop :=
  ∀ (s : State) (x : Flag),
    x = (if s.bypassPending = true ∧ s.bypassAhead = true then (s.weakPend.foldl State.applyWrite s).bypass
      else s.bypass) →
    (x.written = true → ∃ v : Word, v = (if x.val then 1 else 0) ∧ exec .getbyp s = .next (answered s v) ∧
      exec .getbyp (answered s v) = .next (answered (answered s v) v)) ∧
    (x.written = false → exec .getbyp s = .next (faultedWith s s.port 8 16))

/-! ### SETP and GETP -/

/-- 41_parameter_store.md R131, first event of `Write64`: SETP of a binary64 register writes one half, low or high, sets
its mark and holds the other half pending on its port; every other register, the memories and the other port are
unchanged. -/
def Obligations.SetpWritesOneHalfFirst : Prop :=
  ∀ (pa : BitVec 4) (r : Wide) (v : Word) (x : Word64) (s : State),
    paramAt pa = some (.wide r) → writesAtOnce s → x = storedWide s.cfg s.draws r v →
    ∃ t, exec (.setp pa v) s = .next t ∧
      ((t.wide r = { s.wide r with lo := lowWord x, loWritten := true } ∧ t.half s.port = some ⟨.hi r, highWord x⟩) ∨
        (t.wide r = { s.wide r with hi := highWord x, hiWritten := true } ∧ t.half s.port = some ⟨.lo r, lowWord x⟩)) ∧
      (∀ q, q ≠ r → t.wide q = s.wide q) ∧ (∀ p, p ≠ s.port → t.half p = s.half p) ∧
      t = { s with
        time := t.time, dry := t.dry, wet := t.wet, feedback := t.feedback
        halfR := t.halfR, halfC := t.halfC, draws := t.draws, choices := t.choices }

/-- 41_parameter_store.md R131, both events: after the second the register holds the whole value, written, whichever half
went first; between them a read gives one new and one old half (20_memory.md R79). -/
def Obligations.SetpBothEventsStoreTheValue : Prop :=
  ∀ (pa : BitVec 4) (r : Wide) (v id : Word) (x : Word64) (s t : State),
    paramAt pa = some (.wide r) → writesAtOnce s → x = storedWide s.cfg s.draws r v → exec (.setp pa v) s = .next t →
    (bothWritten (s.wide r) →
      (t.wide r).read id = .ok (joinWords (lowWord x) (s.wide r).hi) ∨
        (t.wide r).read id = .ok (joinWords (s.wide r).lo (highWord x))) ∧
    ∃ w, t.half s.port = some w ∧ ((t.finishHalf s.port w).wide r).read id = .ok x ∧
      (t.finishHalf s.port w).half s.port = none ∧
      t.finishHalf s.port w = { completed s with
        time := (t.finishHalf s.port w).time, dry := (t.finishHalf s.port w).dry
        wet := (t.finishHalf s.port w).wet, feedback := (t.finishHalf s.port w).feedback
        halfR := if s.port = .r then none else s.halfR, halfC := if s.port = .c then none else s.halfC
        draws := t.draws, choices := t.choices } ∧
      ∀ q, q ≠ r → (t.finishHalf s.port w).wide q = s.wide q

/-- 41_parameter_store.md R131, R133, R134: SETP of `ZENO`, `PINGPONG` and `FREQ` is one event, which completes. -/
def Obligations.SetpStoresSmallRegisters : Prop :=
  ∀ (v : Word) (s : State), writesAtOnce s →
    exec (.setp 4 v) s = .next { completed s with zeno := ⟨wordToBool v, true⟩ } ∧
      exec (.setp 5 v) s = .next { completed s with pingpong := ⟨wordToBool v, true⟩ } ∧
      exec (.setp 6 v) s = .next { completed s with freq := ⟨v, true⟩ }

/-- 20_memory.md R86: under `WEAK_VIS` every write event of a port C SETP joins the pending set, both halves of a binary64
register, and no register changes. That both halves join in one step, and that the SETP then completes at once, is the
model's choice (log 13). -/
def Obligations.SetpUnderWeakVisibilityIsPending : Prop :=
  ∀ (v : Word) (s : State), s.port = .c → s.cfg.weakVis = true →
    (∀ (pa : BitVec 4) (r : Wide), paramAt pa = some (.wide r) →
      exec (.setp pa v) s = .next { completed s with
        weakPend := s.weakPend ++ [⟨.lo r, lowWord (storedWide s.cfg s.draws r v)⟩,
          ⟨.hi r, highWord (storedWide s.cfg s.draws r v)⟩]
        draws := s.draws + 2 }) ∧
    exec (.setp 4 v) s = .next { completed s with weakPend := s.weakPend ++ [⟨.zeno, if wordToBool v then 1 else 0⟩] } ∧
    exec (.setp 5 v) s = .next { completed s with weakPend := s.weakPend ++ [⟨.pingpong, if wordToBool v then 1 else 0⟩] } ∧
    exec (.setp 6 v) s = .next { completed s with weakPend := s.weakPend ++ [⟨.freq, v⟩] }

/-- 41_parameter_store.md R136: an unknown address makes SETP a silent no-op and GETP answer +0.0. -/
def Obligations.UnknownAddressesAreSilent : Prop :=
  ∀ (pa : BitVec 4) (v : Word) (s : State), 7 ≤ pa.toNat →
    exec (.setp pa v) s = .next (completed s) ∧
      exec (.getp pa) s = .next { answered s 0 with draws := s.draws + 2 }

/-- 41_parameter_store.md R130, R132, R46 of 10_state.md: GETP answers the converted register on the port that executes
it, or faults with the parameter address if the register, or either half of it, was never written. Nothing else
changes. Under `WEAK_VIS` port C reads the registers `x` with its own pending writes applied in issue order (20_memory.md
R86). -/
def Obligations.GetpAnswersOrFaults : Prop :=
  ∀ s x : State, x = (if s.port = .c ∧ s.cfg.weakVis = true then s.weakPend.foldl State.applyWrite s else s) →
    (∀ (pa : BitVec 4) (r : Wide), paramAt pa = some (.wide r) →
      (bothWritten (x.wide r) → exec (.getp pa) s = .next { answered s
          (returnedWide s.cfg s.draws r (joinWords (x.wide r).lo (x.wide r).hi)) with draws := s.draws + 2 }) ∧
      (¬bothWritten (x.wide r) → exec (.getp pa) s = .next (faultedWith s s.port 8 (pa.setWidth 32)))) ∧
    (x.zeno.written = true →
      exec (.getp 4) s = .next { answered s (if x.zeno.val then 0x3F800000 else 0) with draws := s.draws + 2 }) ∧
    (x.zeno.written = false → exec (.getp 4) s = .next (faultedWith s s.port 8 4)) ∧
    (x.pingpong.written = true →
      exec (.getp 5) s = .next { answered s (if x.pingpong.val then 0x3F800000 else 0) with draws := s.draws + 2 }) ∧
    (x.pingpong.written = false → exec (.getp 5) s = .next (faultedWith s s.port 8 5)) ∧
    (x.freq.written = true → exec (.getp 6) s = .next { answered s x.freq.val with draws := s.draws + 2 }) ∧
    (x.freq.written = false → exec (.getp 6) s = .next (faultedWith s s.port 8 6))

/-- 20_memory.md R86: a GETP on port C reads its own pending writes first, so it answers the value of the SETP before it,
for each of the seven registers. -/
def Obligations.GetpSeesOwnPendingWrites : Prop :=
  ∀ (v : Word) (s t : State), s.port = .c → s.cfg.weakVis = true →
    (∀ (pa : BitVec 4) (r : Wide), paramAt pa = some (.wide r) → exec (.setp pa v) s = .next t →
      exec (.getp pa) t = .next { answered t
        (returnedWide t.cfg t.draws r (storedWide s.cfg s.draws r v)) with draws := t.draws + 2 }) ∧
    (exec (.setp 4 v) s = .next t → exec (.getp 4) t = .next { answered t
        (if wordToBool v then 0x3F800000 else 0) with draws := t.draws + 2 }) ∧
    (exec (.setp 5 v) s = .next t → exec (.getp 5) t = .next { answered t
        (if wordToBool v then 0x3F800000 else 0) with draws := t.draws + 2 }) ∧
    (exec (.setp 6 v) s = .next t → exec (.getp 6) t = .next { answered t v with draws := t.draws + 2 })

/-- 20_memory.md R86: a visibility event applies one pending write, the oldest of its register half, and takes it out of
the set; and whichever register half has a pending write may be the one. -/
def Obligations.PendingWriteBecomesVisible : Prop :=
  ∀ s : State, s.weakPend ≠ [] →
    (∃ (before after : List RegWrite) (w : RegWrite), s.weakPend = before ++ w :: after ∧
      (∀ x ∈ before, x.slot ≠ w.slot) ∧
      s.applyPending = { s.applyWrite w with
        weakPend := before ++ after, draws := s.applyPending.draws, choices := s.applyPending.choices }) ∧
    ∀ y ∈ s.weakPend, ∃ (n : Nat) (before after : List RegWrite) (w : RegWrite),
      s.weakPend = before ++ w :: after ∧ w.slot = y.slot ∧
      ({ s with choices := n :: s.choices }.applyPending).weakPend = before ++ after

/-- 41_parameter_store.md R133: `toBool` is false on the two zeros and true on everything else, NaNs included. -/
def Obligations.ToBoolIsFalseOnZeros : Prop :=
  ∀ v : Word, wordToBool v = false ↔ (v = 0x00000000 ∨ v = 0x80000000)

/-- 00_scope.md R16, 41_parameter_store.md R134: widening is exact, so narrowing a widened value gives it back (`FTZ`
false). -/
def Obligations.WideningIsExact : Prop :=
  ∀ (d d' : Nat) (v : Word), isNaN32 v = false → narrow false d' (widen d v) = v

/-- 41_parameter_store.md R130, R137: SETP then GETP on one port with no other write between. `FREQ` comes back bit for bit,
`TIME` exactly for every `v` that is not a NaN (`FTZ` false) and a NaN as some NaN, a percentage as `fl32(fl64(fl64(w64(v) / PCT_SCALE) *
PCT_SCALE))`, so 0, 50 and 100 exactly and stored as 0.0, 0.5 and 1.0 (with the source's `PCT_SCALE`), and the two flags
exactly at 0.0 and 1.0. -/
def Obligations.SetpThenGetpReturnsTheValue : Prop :=
  ∀ (v : Word) (s t : State), writesAtOnce s →
    (exec (.setp 6 v) s = .next t → exec (.getp 6) t = .next { answered t v with draws := t.draws + 2 }) ∧
    (exec (.setp 0 v) s = .next t → ∀ w, t.half s.port = some w → ∃ u : Word,
      exec (.getp 0) (t.finishHalf s.port w) = .next { answered (t.finishHalf s.port w) u with draws := t.draws + 2 } ∧
      (isNaN32 v = false → s.cfg.ftz = false → u = v) ∧ (isNaN32 v = true → isNaN32 u = true)) ∧
    (∀ (pa : BitVec 4) (r : Wide) (w : RegWrite) (x : Word64), paramAt pa = some (.wide r) → r ≠ .time →
      exec (.setp pa v) s = .next t → t.half s.port = some w →
      x = div64 s.cfg.ftz (s.draws + 1) (widen s.draws v) s.cfg.pctScale →
      ((t.finishHalf s.port w).wide r).read 0 = .ok x ∧
      exec (.getp pa) (t.finishHalf s.port w) = .next { answered (t.finishHalf s.port w)
        (narrow s.cfg.ftz (t.draws + 1) (mul64 s.cfg.ftz t.draws x s.cfg.pctScale)) with draws := t.draws + 2 } ∧
      ∀ q : Word64, (v, q) ∈ [((0 : Word), (0 : Word64)), (0x42480000, 0x3FE0000000000000),
          (0x42C80000, 0x3FF0000000000000)] → s.cfg.pctScale = 0x4059000000000000 →
        x = q ∧ narrow s.cfg.ftz (t.draws + 1) (mul64 s.cfg.ftz t.draws x s.cfg.pctScale) = v) ∧
    (v = 0 ∨ v = 0x3F800000 →
      (exec (.setp 4 v) s = .next t → exec (.getp 4) t = .next { answered t v with draws := t.draws + 2 }) ∧
      (exec (.setp 5 v) s = .next t → exec (.getp 5) t = .next { answered t v with draws := t.draws + 2 }))

/-! ### Arithmetic -/

/-- 00_scope.md R13, R16: a drawn NaN is a NaN of its format, and every NaN can be drawn. -/
def Obligations.NanDrawsAreNans : Prop :=
  (∀ d, isNaN32 (nan32 d) = true ∧ isNaN64 (nan64 d) = true) ∧
    (∀ x : Word, isNaN32 x = true → asNan32 x = x) ∧ ∀ x : Word64, isNaN64 x = true → asNan64 x = x

/-- 00_scope.md R16: rounding is to nearest, ties to even. Of all finite magnitudes, a finite result is one that lies
nearest to the exact value, and its last bit is 0 if another lies as near. -/
def Obligations.RoundingIsToNearestEven : Prop :=
  ∀ (f : Format) (num den mag : Nat), f = binary32 ∨ f = binary64 → 0 < den →
    f.roundMag false num den < f.infBits → mag < f.infBits →
    distance f num den (f.roundMag false num den) ≤ distance f num den mag ∧
      (mag ≠ f.roundMag false num den → distance f num den (f.roundMag false num den) = distance f num den mag →
        f.roundMag false num den % 2 = 0)

/-- 43_oscillator.md R172: `SIN32` is +0.0 at +0.0, lies in `[−1, 1]` at every finite argument, and is a NaN at a NaN or an
infinity, for the reference instance and for an uninterpreted one. -/
def Obligations.SineHasTheStatedProperties : Prop :=
  ∀ (u : SineUnit) (x : Word),
    sineOf u 0 = 0 ∧
      (x.toNat % 2 ^ 31 < 0x7F800000 →
        isNaN32 (sineOf u x) = false ∧ (sineOf u x).toNat % 2 ^ 31 ≤ 0x3F800000) ∧
      (0x7F800000 ≤ x.toNat % 2 ^ 31 → isNaN32 (sineOf u x) = true)

/-- 43_oscillator.md R178 (a): for a pan in `[−1, 1]` the gains lie in `[0, 1]` (with the source's `PAN_HALF`). -/
def Obligations.GainsStayInUnitRange : Prop :=
  ∀ (c : Config) (d : Nat) (pan : Word), c.panHalf = 0x3F000000 → pan.toNat % 2 ^ 31 ≤ 0x3F800000 →
    (leftGain c d pan).toNat ≤ 0x3F800000 ∧ (rightGain c d pan).toNat ≤ 0x3F800000

/-- 44_render.md R198, the source's clamp invariant: what the Zeno algorithm writes into the delay line is a NaN or lies in
`[−1, 1]` (with the source's `CLAMP_LIM`). -/
def Obligations.ZenoWriteIsClamped : Prop :=
  ∀ (c : Config) (d : Nat) (input echo : Word), c.clampLim = 0x3FF0000000000000 →
    isNaN32 (zenoWrite c d input echo) = true ∨ (zenoWrite c d input echo).toNat % 2 ^ 31 ≤ 0x3F800000

/-! ### PROCESS and its micro-steps -/

/-- 44_render.md R193: the base delay is `roundHA(fl64(TIME * SR))` clamped to `[1, CAP − 1]`; a NaN product faults with
the high half of `TIME`, an unwritten half of `TIME` with its address. -/
def Obligations.BaseDelayIsTheClampedRounding : Prop :=
  ∀ (s : State) (d : Nat) (t prod : Word64), t = joinWords s.time.lo s.time.hi → prod = mul64 s.cfg.ftz d t s.sr →
    (¬bothWritten s.time → baseDelay s = .error (.trap .unwritten 0)) ∧
    (bothWritten s.time → isNaN64 prod = true → baseDelay s = .error (.trap .badTime (highWord t))) ∧
    (bothWritten s.time → isNaN64 prod = false → 2 ≤ s.cap →
      ∃ r n, roundHA prod = some r ∧ baseDelay s = .ok n ∧ (n : Int) = clampI r 1 ((s.cap : Int) - 1) ∧
        1 ≤ n ∧ n ≤ s.cap - 1)

/-- 44_render.md R191, R207: a PROCESS that passes its checks with `BYPASS` clear latches its counts and the base delay and
goes to its first frame, or completes when it has none; nothing else changes. -/
def Obligations.ProcessBeginsAnActiveBlock : Prop :=
  ∀ (n frames : Word) (st : Word64) (d : Nat) (s : State),
    s.port = .r → s.initd = true → n.toNat ≤ s.nch.toNat → s.maxf.written = true → frames.toNat ≤ s.maxf.val.toNat →
    s.bypass.written = true → s.bypass.val = false → baseDelay s = .ok d →
    exec (.process n n frames st) s = .next { s with
      pnch := n, pf := frames, baseD := d
      seq := if 0 < frames.toNat then .frame 0 else .idle
      doneR := if 0 < frames.toNat then s.doneR else s.doneR + 1 }

/-- 44_render.md R192: a bypassed PROCESS copies every input word to the output word of the same place, changes no other
output word, completes, and writes no register but `PNCH`, `PF` and `SEQ`; no parameter need be written. -/
def Obligations.ProcessBypassCopiesInToOut : Prop :=
  ∀ (n frames : Word) (st : Word64) (s : State),
    s.port = .r → s.initd = true → n.toNat ≤ s.nch.toNat → s.maxf.written = true → frames.toNat ≤ s.maxf.val.toNat →
    s.bypass.written = true → s.bypass.val = true → s.outBuf.wf →
    ∃ t, exec (.process n n frames st) s = .next t ∧
      (∀ ch i, ch < n.toNat → i < frames.toNat →
        t.outBuf.read (sampleIndex ch i) = s.inBuf.read (sampleIndex ch i)) ∧
      (∀ a, (∀ ch i, ch < n.toNat → i < frames.toNat → a ≠ sampleIndex ch i) → t.outBuf.read a = s.outBuf.read a) ∧
      t = { s with pnch := n, pf := frames, seq := .idle, doneR := s.doneR + 1, outBuf := t.outBuf }

/-- 44_render.md R191 with the order of 60_exceptions.md R262: the first check of BLOCK_BEGIN that fails decides the fault,
and nothing but the fault registers changes. -/
def Obligations.ProcessFaultsInOrder : Prop :=
  ∀ (a b frames : Word) (st prod : Word64) (s : State) (code : BitVec 8) (info : Word),
    s.port = .r → prod = mul64 s.cfg.ftz s.draws (joinWords s.time.lo s.time.hi) s.sr →
    (if s.initd = false then some ((2 : BitVec 8), (0x09000000 : Word))
      else if a ≠ b then some (4, a)
      else if s.nch.toNat < a.toNat then some (5, a)
      else if s.maxf.written = false then some (8, 17)
      else if s.maxf.val.toNat < frames.toNat then some (7, frames)
      else if s.bypass.written = false then some (8, 16)
      else if s.bypass.val = true then none
      else if s.time.loWritten = false ∨ s.time.hiWritten = false then some (8, 0)
      else if isNaN64 prod = true then some (9, s.time.hi)
      else none) = some (code, info) →
    exec (.process a b frames st) s = .next (faultedWith s .r code info)

/-- 44_render.md R194, 43_oscillator.md R170 to R175: a FRAME_BEGIN with ping-pong active takes the gains from the sine of
the phase as the frame finds it (R175), then advances the phase by the increment of the current `FREQ` (R171), with the
wraps of R173; nothing else changes. For an infinite `FREQ` this follows R173's pseudocode where R171's corner case says
NaN, which is the model's choice (log 22). -/
def Obligations.ActiveFrameAdvancesTheOscillator : Prop :=
  ∀ (i : Nat) (s : State) (inc p pan : Word), s.seq = .frame i → s.pingpong.written = true → s.pingpong.val = true →
    2 ≤ s.pnch.toNat → s.freq.written = true →
    inc = narrow s.cfg.ftz (s.draws + 3) (div64 s.cfg.ftz (s.draws + 2)
      (mul64 s.cfg.ftz (s.draws + 1) s.cfg.twoPi64 (widen s.draws s.freq.val)) s.sr) →
    p = add32 s.cfg.ftz (s.draws + 4) s.phase inc → pan = sineOf s.cfg.sine s.phase →
    microStep s = .next { s with
      active := true
      phase :=
        if ge32 p s.cfg.twoPi32 then sub32 s.cfg.ftz (s.draws + 5) p s.cfg.twoPi32
        else if lt32 p 0 then add32 s.cfg.ftz (s.draws + 5) p s.cfg.twoPi32
        else p
      gl := mul32 s.cfg.ftz (s.draws + 7) (sub32 s.cfg.ftz (s.draws + 6) 0x3F800000 pan) s.cfg.panHalf
      gr := mul32 s.cfg.ftz (s.draws + 9) (add32 s.cfg.ftz (s.draws + 8) 0x3F800000 pan) s.cfg.panHalf
      seq := .chan i 0
      draws := s.draws + 10 }

/-- 44_render.md R194, 43_oscillator.md R175, R177: a FRAME_BEGIN without ping-pong, or with fewer than 2 channels, sets
both gains to 0.5 and leaves `PHASE` alone, `FREQ` unread; a block of no channels goes on to its next frame or ends. -/
def Obligations.InactiveFrameLeavesTheOscillator : Prop :=
  ∀ (i : Nat) (s : State), s.seq = .frame i → s.pingpong.written = true →
    (s.pingpong.val = false ∨ s.pnch.toNat < 2) →
    ∃ q, q = (if 0 < s.pnch.toNat then Seq.chan i 0 else if i + 1 < s.pf.toNat then .frame (i + 1) else .idle) ∧
      microStep s = .next { s with
        active := false, gl := 0x3F000000, gr := 0x3F000000, seq := q
        doneR := if q = .idle then s.doneR + 1 else s.doneR }

/-- 44_render.md R194 to R200 with 60_exceptions.md R262: the fault of a FRAME_BEGIN or CHSTEP is that of the first
unwritten register it reads, and nothing but the fault registers changes. -/
def Obligations.BlockMicroStepsFaultInOrder : Prop :=
  ∀ s : State,
    (∀ i, s.seq = .frame i →
      (s.pingpong.written = false → microStep s = .next (faultedWith s .r 8 5)) ∧
      (s.pingpong.written = true → s.pingpong.val = true → 2 ≤ s.pnch.toNat → s.freq.written = false →
        microStep s = .next (faultedWith s .r 8 6))) ∧
    ∀ (i ch : Nat) (id : Word), s.seq = .chan i ch →
      (if s.zeno.written = false then some (4 : Word)
        else if s.zeno.val = false ∧ (s.feedback.loWritten = false ∨ s.feedback.hiWritten = false) then some 3
        else if s.dry.loWritten = false ∨ s.dry.hiWritten = false then some 1
        else if s.wet.loWritten = false ∨ s.wet.hiWritten = false then some 2
        else none) = some id →
      microStep s = .next (faultedWith s .r 8 id)

/-- 44_render.md R195, R196, R200 to R202: a CHSTEP of the standard algorithm. The delay line takes
`fl32(fl64(w64(in) + fl64(w64(tap) * fb)))` at the cursor, the output word
`fl32(fl64(fl64(w64(in) * dry) + fl64(fl64(w64(dOut) * wet) * w64(g))))`, the cursor moves on, and every other word of
`DLM` and `OUT` and every other field is unchanged. -/
def Obligations.ChannelStepStandard : Prop :=
  ∀ (i ch : Nat) (s : State) (input tap wv out : Word), s.Inv → s.seq = .chan i ch →
    s.zeno.written = true → s.zeno.val = false → bothWritten s.feedback → bothWritten s.dry → bothWritten s.wet →
    input = s.inBuf.read (sampleIndex ch i) →
    tap = s.dlm.read (ch * s.cap + (s.cursor ch + s.cap - s.baseD) % s.cap) →
    wv = narrow s.cfg.ftz (s.draws + 12) (add64 s.cfg.ftz (s.draws + 11) (widen (s.draws + 8) input)
      (mul64 s.cfg.ftz (s.draws + 10) (widen (s.draws + 9) tap) (joinWords s.feedback.lo s.feedback.hi))) →
    out = mixed s input tap (s.mixGain ch) →
    ∃ t, microStep s = .next t ∧
      (∀ a, t.dlm.read a = if a = ch * s.cap + s.cursor ch then wv else s.dlm.read a) ∧
      (∀ a, t.outBuf.read a = if a = sampleIndex ch i then out else s.outBuf.read a) ∧
      t.wi = s.wi.set ch ((s.cursor ch + 1) % s.cap) ∧
      t.seq = (if ch + 1 < s.pnch.toNat then .chan i (ch + 1) else if i + 1 < s.pf.toNat then .frame (i + 1) else .idle) ∧
      t = { s with
        dlm := t.dlm, outBuf := t.outBuf, wi := t.wi, seq := t.seq, draws := t.draws
        doneR := if t.seq = .idle then s.doneR + 1 else s.doneR }

/-- 44_render.md R195, R197, R198, R200 to R202: a CHSTEP of the Zeno algorithm. The tap sum runs over the Zeno offsets
(42_delay_line.md R157) from gain `ZENO_G0` and sum +0.0, each tap adding `fl32(s * g)` and multiplying the gain by
`ZENO_DECAY`; its value is the delayed sample and its clamped feedback goes into the delay line; `FEEDBACK` is not read;
every other word and field is unchanged. -/
def Obligations.ChannelStepZeno : Prop :=
  ∀ (i ch : Nat) (s : State) (input : Word), s.Inv → s.seq = .chan i ch →
    s.zeno.written = true → s.zeno.val = true → bothWritten s.dry → bothWritten s.wet →
    input = s.inBuf.read (sampleIndex ch i) →
    (∀ (d : Nat) (g e : Word), zenoEcho s ch [] d g e = .ok e) ∧
    (∀ (off : Nat) (offs : List Nat) (d : Nat) (g e tap : Word), 1 ≤ off → off ≤ s.cap →
      tap = s.dlm.read (ch * s.cap + (s.cursor ch + s.cap - off) % s.cap) →
      zenoEcho s ch (off :: offs) d g e = zenoEcho s ch offs (d + 3) (mul32 s.cfg.ftz (d + 2) g s.cfg.zenoDecay)
        (add32 s.cfg.ftz (d + 1) e (mul32 s.cfg.ftz d tap g))) ∧
    ∃ (echo wv : Word) (t : State),
      zenoEcho s ch (zenoTaps s.baseD) (s.draws + 13) s.cfg.zenoG0 0 = .ok echo ∧
      wv = narrow s.cfg.ftz (s.draws + 12) (clampF (add64 s.cfg.ftz (s.draws + 11) (widen (s.draws + 8) input)
        (mul64 s.cfg.ftz (s.draws + 10) (widen (s.draws + 9) echo) s.cfg.zenoFb)) (neg64 s.cfg.clampLim)
        s.cfg.clampLim) ∧
      microStep s = .next t ∧
      (∀ a, t.dlm.read a = if a = ch * s.cap + s.cursor ch then wv else s.dlm.read a) ∧
      (∀ a, t.outBuf.read a =
        if a = sampleIndex ch i then mixed s input echo (s.mixGain ch) else s.outBuf.read a) ∧
      t.wi = s.wi.set ch ((s.cursor ch + 1) % s.cap) ∧
      t.seq = (if ch + 1 < s.pnch.toNat then .chan i (ch + 1) else if i + 1 < s.pf.toNat then .frame (i + 1) else .idle) ∧
      t = { s with
        dlm := t.dlm, outBuf := t.outBuf, wi := t.wi, seq := t.seq, draws := t.draws
        doneR := if t.seq = .idle then s.doneR + 1 else s.doneR }

/-- 43_oscillator.md R176: the gain of a channel in the mix. -/
def Obligations.MixGainFollowsThePan : Prop :=
  ∀ (s : State) (ch : Nat),
    (s.active = true → ch = 0 → s.mixGain ch = s.gl) ∧ (s.active = true → ch ≠ 0 → s.mixGain ch = s.gr) ∧
      (s.active = false → s.mixGain ch = 0x3F800000)

/-- 42_delay_line.md R157: the Zeno offsets of a base delay `d >= 1` are `d div 2^k` for `k` up to `floor(log2 d)`, and
each lies in `[1, d]`. -/
def Obligations.ZenoTapsHalve : Prop :=
  ∀ d, 1 ≤ d →
    zenoTaps d = (List.range (Nat.log2 d + 1)).map (fun k => d / 2 ^ k) ∧ ∀ off ∈ zenoTaps d, 1 ≤ off ∧ off ≤ d

/-- 42_delay_line.md R155, R156: after a write and advance, the tap at offset 1 reads the written value, the tap at every
further offset what the tap one nearer read before, and a write changes no tap of `[1, CAP − 1]` before the advance. -/
def Obligations.DelayHistoryShifts : Prop :=
  ∀ (s t : State) (ch : Nat) (v : Word), s.Inv → s.initd = true → dlWrite s ch v = .ok t →
    dlRead (dlAdvance t ch) ch 1 = .ok v ∧
      (∀ off, 1 ≤ off → off + 1 ≤ s.cap → dlRead (dlAdvance t ch) ch (off + 1) = dlRead s ch off) ∧
      ∀ off, 1 ≤ off → off ≤ s.cap - 1 → dlRead t ch off = dlRead s ch off

/-- 20_memory.md R73, 42_delay_line.md R158: of all input words a CHSTEP(i, ch) depends on `IN[ch][i]` alone. -/
def Obligations.ChannelStepReadsOneInputWord : Prop :=
  ∀ (i ch : Nat) (s t : State) (other : Memory), s.seq = .chan i ch →
    other.read (sampleIndex ch i) = s.inBuf.read (sampleIndex ch i) → microStep s = .next t →
    microStep { s with inBuf := other } = .next { t with inBuf := other }

/-- 44_render.md R203, R204 and 42_delay_line.md R159: with port C quiet and the registers written, a block that stands at
its first frame runs exactly `PF * (1 + PNCH)` further micro-steps, completes once, leaves no fault, and moves the cursor of
every channel below `PNCH` by `PF` modulo `CAP` and no other. -/
def Obligations.BlockEndsInBoundedSteps : Prop :=
  ∀ s : State, s.Inv → s.faulted = false → s.seq = .frame 0 → s.controlQuiet = true → s.blockRegistersWritten = true →
    (∀ k, k < blockSteps s → ∃ u, Host.Core.run Sys2Proof.core k s = .next u ∧ u.seq ≠ .idle) ∧
    ∃ t, Host.Core.run Sys2Proof.core (blockSteps s) s = .next t ∧ t.seq = .idle ∧ t.faulted = false ∧
      t.doneR = s.doneR + 1 ∧
      (∀ ch, ch < s.pnch.toNat → t.cursor ch = (s.cursor ch + s.pf.toNat) % s.cap) ∧
      ∀ ch, s.pnch.toNat ≤ ch → t.cursor ch = s.cursor ch

/-! ### The arithmetic of the statements above -/

/-- 41_parameter_store.md R130, R135: what SETP stores in and GETP returns from a binary64 register, which the statements
above name by `storedWide` and `returnedWide`: `TIME` widened and narrowed, `DRY`, `WET` and `FEEDBACK` divided and
multiplied by `PCT_SCALE`. 00_scope.md R16: every operation on finite operands rounds its exact result once (a result that
is not an exact zero sum; the signs are IEEE 754's, log 20, and what `FTZ` flushes is log 11). -/
def Obligations.ConversionsAndArithmeticRoundOnce : Prop :=
  (∀ (c : Config) (d : Nat) (v : Word) (x : Word64) (r : Wide),
    storedWide c d r v = (if r = .time then widen d v else div64 c.ftz (d + 1) (widen d v) c.pctScale) ∧
    returnedWide c d r x =
      (if r = .time then narrow c.ftz d x else narrow c.ftz (d + 1) (mul64 c.ftz d x c.pctScale))) ∧
  (∀ (ftz : Bool) (d : Nat) (a b : Word64), magOf binary64 a.toNat < binary64.infBits →
    magOf binary64 b.toNat < binary64.infBits →
    ((mul64 ftz d a b).toNat = rounded binary64 ftz (negative binary64 a.toNat ^^ negative binary64 b.toNat)
      (unitsOf binary64 (magOf binary64 a.toNat) * unitsOf binary64 (magOf binary64 b.toNat)) (2 ^ 1074)) ∧
    (magOf binary64 b.toNat ≠ 0 →
      (div64 ftz d a b).toNat = rounded binary64 ftz (negative binary64 a.toNat ^^ negative binary64 b.toNat)
        (unitsOf binary64 (magOf binary64 a.toNat) * 2 ^ 1074) (unitsOf binary64 (magOf binary64 b.toNat))) ∧
    (∀ z : Int, z = valueOf binary64 a.toNat + valueOf binary64 b.toNat → z ≠ 0 →
      (add64 ftz d a b).toNat = rounded binary64 ftz (decide (z < 0)) z.natAbs 1) ∧
    (narrow ftz d a).toNat = rounded binary32 ftz (negative binary64 a.toNat)
      (unitsOf binary64 (magOf binary64 a.toNat) * 2 ^ 149) (2 ^ 1074)) ∧
  ∀ (ftz : Bool) (d : Nat) (a b : Word), magOf binary32 a.toNat < binary32.infBits →
    magOf binary32 b.toNat < binary32.infBits →
    ((mul32 ftz d a b).toNat = rounded binary32 ftz (negative binary32 a.toNat ^^ negative binary32 b.toNat)
      (unitsOf binary32 (magOf binary32 a.toNat) * unitsOf binary32 (magOf binary32 b.toNat)) (2 ^ 149)) ∧
    (∀ z : Int, z = valueOf binary32 a.toNat + valueOf binary32 b.toNat → z ≠ 0 →
      (add32 ftz d a b).toNat = rounded binary32 ftz (decide (z < 0)) z.natAbs 1) ∧
    (∀ z : Int, z = valueOf binary32 a.toNat - valueOf binary32 b.toNat → z ≠ 0 →
      (sub32 ftz d a b).toNat = rounded binary32 ftz (decide (z < 0)) z.natAbs 1) ∧
    (widen d a).toNat = rounded binary64 false (negative binary32 a.toNat)
      (unitsOf binary32 (magOf binary32 a.toNat) * 2 ^ 1074) (2 ^ 149)
end

