-- ==== Sys2Proof/Laws/Ieee.lean ====
section
/-! SUPPORT. What the free NaN of a binary64 operation is. -/

namespace Sys2Proof.Machine

/-- A magnitude above infinity's is a NaN. -/
theorem isNaN64_of_lt {x : Word64} (h : 0x7FF0000000000000 < x.toNat % 2 ^ 63) : isNaN64 x = true := by
  have : binary64.infBits < x.toNat % binary64.signBit := h
  simp [isNaN64, datum64, Format.datum, this]

/-- Whatever bits are drawn, `asNan64` gives a NaN. -/
theorem asNan64_isNaN (x : Word64) : isNaN64 (asNan64 x) = true := by
  apply isNaN64_of_lt
  have hor : ∀ c : Word64, c.toNat % 2 ^ 63 = c.toNat → (x ||| c).toNat % 2 ^ 63 = x.toNat % 2 ^ 63 ||| c.toNat := by
    intro c hc
    rw [BitVec.toNat_or, Nat.or_mod_two_pow, hc]
  unfold asNan64
  split
  · rw [hor _ (by decide)]
    exact lt_of_lt_of_le (by decide) Nat.right_le_or
  · rename_i h
    rw [hor _ (by decide)]
    refine lt_of_le_of_ne Nat.right_le_or fun he => h ?_
    have h52 := congrArg (· % 2 ^ 52) he
    simp only [Nat.or_mod_two_pow] at h52
    apply BitVec.eq_of_toNat_eq
    rw [BitVec.toNat_and]
    have hm : (0x000FFFFFFFFFFFFF#64).toNat = 2 ^ 52 - 1 := by decide
    rw [hm, Nat.and_two_pow_sub_one_eq_mod]
    have hz : (0x7FF0000000000000#64).toNat % 2 ^ 52 = 0 := by decide
    rw [Nat.mod_mod_of_dvd _ (by decide)] at h52
    have : (0x7FF0000000000000 : Nat) % 2 ^ 52 = 0 := by decide
    simpa [this, hz] using h52.symm

/-- A drawn binary64 NaN is a NaN (00_scope.md R16). -/
theorem nan64_isNaN (d : Nat) : isNaN64 (nan64 d) = true := asNan64_isNaN _

end Sys2Proof.Machine
end

