-- ==== Sys2Proof/Laws/Memory.lean ====
section
/-! SUPPORT. Word memory: what a read gives after a write or a zero fill, and that every operation keeps the one form. -/

namespace Sys2Proof.Machine

@[simp] theorem Memory.read_nil (a : Nat) : Memory.read [] a = 0#32 := rfl

theorem Memory.read_cons (k : Nat) (v : Word) (m : Memory) (a : Nat) :
    Memory.read ((k, v) :: m) a = if a = k then v else m.read a := rfl

/-- A word that no entry lists reads 0. -/
theorem Memory.read_unlisted (m : Memory) (a : Nat) (h : ∀ c ∈ m, c.1 ≠ a) : m.read a = 0#32 := by
  induction m with
  | nil => rfl
  | cons c m ih =>
    obtain ⟨k, v⟩ := c
    have hk : a ≠ k := fun e => h (k, v) (by simp) e.symm
    rw [Memory.read_cons, if_neg hk]
    exact ih fun c hc => h c (List.mem_cons_of_mem _ hc)

theorem Memory.wf_tail {c : Nat × Word} {m : Memory} (h : Memory.wf (c :: m)) : m.wf :=
  ⟨(List.pairwise_cons.1 h.1).2, fun d hd => h.2 d (List.mem_cons_of_mem _ hd)⟩

/-- In a tail every index is above the head's. -/
theorem Memory.wf_head {c : Nat × Word} {m : Memory} (h : Memory.wf (c :: m)) : ∀ d ∈ m, c.1 < d.1 :=
  (List.pairwise_cons.1 h.1).1

theorem Memory.read_below {m : Memory} (a : Nat) (h : ∀ d ∈ m, a < d.1) : m.read a = 0#32 :=
  m.read_unlisted a fun c hc e => absurd (h c hc) (by omega)

/-- What a write writes, a read of the same word gives. -/
theorem Memory.read_write_same (m : Memory) (a : Nat) (v : Word) (h : m.wf) : (m.write a v).read a = v := by
  induction m with
  | nil => by_cases hv : v = 0#32 <;> simp [Memory.write, Memory.read, hv]
  | cons c m ih =>
    obtain ⟨k, x⟩ := c
    have hm := Memory.wf_tail h
    have hk := Memory.wf_head h
    by_cases h1 : a < k
    · have h0 : Memory.read ((k, x) :: m) a = 0#32 :=
        Memory.read_below a fun d hd => by
          rcases List.mem_cons.1 hd with rfl | hd
          · exact h1
          · exact Nat.lt_trans h1 (hk d hd)
      by_cases hv : v = 0#32
      · simp [Memory.write, h1, hv, h0]
      · simp [Memory.write, h1, hv, Memory.read_cons]
    · by_cases h2 : a = k
      · subst h2
        by_cases hv : v = 0#32
        · simp [Memory.write, hv, Memory.read_below a hk]
        · simp [Memory.write, hv, Memory.read_cons]
      · simp [Memory.write, h1, h2, Memory.read_cons, ih hm]

/-- A write leaves every other word alone. -/
theorem Memory.read_write_other (m : Memory) (a b : Nat) (v : Word) (hb : b ≠ a) :
    (m.write a v).read b = m.read b := by
  induction m with
  | nil => by_cases hv : v = 0#32 <;> simp [Memory.write, Memory.read, hv, hb]
  | cons c m ih =>
    obtain ⟨k, x⟩ := c
    by_cases h1 : a < k
    · by_cases hv : v = 0#32 <;> simp [Memory.write, h1, hv, Memory.read_cons, hb]
    · by_cases h2 : a = k
      · subst h2
        by_cases hv : v = 0#32 <;> simp [Memory.write, hv, Memory.read_cons, hb]
      · simp [Memory.write, h1, h2, Memory.read_cons, ih]

/-- Every entry after a write is the written one or an old one. -/
theorem Memory.mem_write {m : Memory} {a : Nat} {v : Word} {c : Nat × Word} (h : c ∈ m.write a v) :
    (c = (a, v) ∧ v ≠ 0#32) ∨ c ∈ m := by
  induction m with
  | nil =>
    by_cases hv : v = 0#32
    · simp [Memory.write, hv] at h
    · simp only [Memory.write, if_neg hv, List.mem_singleton] at h
      exact .inl ⟨h, hv⟩
  | cons d m ih =>
    obtain ⟨k, x⟩ := d
    simp only [Memory.write] at h
    split at h
    · split at h
      · exact .inr h
      · rename_i hv
        rcases List.mem_cons.1 h with rfl | h
        · exact .inl ⟨rfl, hv⟩
        · exact .inr h
    · split at h
      · split at h
        · exact .inr (List.mem_cons_of_mem _ h)
        · rename_i hv
          rcases List.mem_cons.1 h with rfl | h
          · exact .inl ⟨rfl, hv⟩
          · exact .inr (List.mem_cons_of_mem _ h)
      · rcases List.mem_cons.1 h with rfl | h
        · exact .inr (by simp)
        · rcases ih h with h | h
          · exact .inl h
          · exact .inr (List.mem_cons_of_mem _ h)

/-- A write keeps the one form. -/
theorem Memory.write_wf (m : Memory) (a : Nat) (v : Word) (h : m.wf) : (m.write a v).wf := by
  induction m with
  | nil => by_cases hv : v = 0#32 <;> simp [Memory.write, Memory.wf, hv]
  | cons c m ih =>
    obtain ⟨k, x⟩ := c
    have hm := Memory.wf_tail h
    have hk := Memory.wf_head h
    have hx : x ≠ 0#32 := h.2 (k, x) (by simp)
    by_cases h1 : a < k
    · by_cases hv : v = 0#32
      · simpa [Memory.write, h1, hv] using h
      · have hall : ∀ d ∈ (k, x) :: m, a < d.1 := fun d hd => by
          rcases List.mem_cons.1 hd with rfl | hd
          · exact h1
          · exact Nat.lt_trans h1 (hk d hd)
        simp only [Memory.write, if_pos h1, if_neg hv]
        exact ⟨List.pairwise_cons.2 ⟨hall, h.1⟩, fun d hd => by
          rcases List.mem_cons.1 hd with rfl | hd
          · exact hv
          · exact h.2 d hd⟩
    · by_cases h2 : a = k
      · subst h2
        by_cases hv : v = 0#32
        · simpa [Memory.write, hv] using hm
        · simp only [Memory.write, Nat.lt_irrefl, if_false, if_true, if_neg hv]
          exact ⟨List.pairwise_cons.2 ⟨hk, hm.1⟩, fun d hd => by
            rcases List.mem_cons.1 hd with rfl | hd
            · exact hv
            · exact hm.2 d hd⟩
      · simp only [Memory.write, if_neg h1, if_neg h2]
        have hw := ih hm
        exact ⟨List.pairwise_cons.2 ⟨fun d hd => by
            rcases Memory.mem_write hd with ⟨rfl, -⟩ | hd
            · simp only; omega
            · exact hk d hd, hw.1⟩, fun d hd => by
            rcases List.mem_cons.1 hd with rfl | hd
            · exact hx
            · exact hw.2 d hd⟩

/-- A zero fill keeps the one form. -/
theorem Memory.zeroBelow_wf (m : Memory) (n : Nat) (h : m.wf) : (m.zeroBelow n).wf :=
  ⟨h.1.filter _, fun c hc => h.2 c (List.mem_filter.1 hc).1⟩

/-- A zero fill: words below `n` read 0, the others as before. -/
theorem Memory.read_zeroBelow (m : Memory) (n a : Nat) :
    (m.zeroBelow n).read a = if a < n then 0#32 else m.read a := by
  induction m with
  | nil => simp [Memory.zeroBelow]
  | cons c m ih =>
    obtain ⟨k, v⟩ := c
    simp only [Memory.zeroBelow] at ih
    by_cases hk : n ≤ k
    · simp only [Memory.zeroBelow, List.filter_cons, decide_eq_true hk, if_true, Memory.read_cons, ih]
      by_cases ha : a < n
      · have : a ≠ k := by omega
        simp [ha, this]
      · simp [ha]
    · simp only [Memory.zeroBelow, List.filter_cons, decide_eq_false hk, Memory.read_cons]
      simp only [Bool.false_eq_true, if_false, ih]
      by_cases ha : a < n
      · simp [ha]
      · have : a ≠ k := by omega
        simp [ha, this]

end Sys2Proof.Machine
end

