-- ==== Sys2Proof/Laws/State.lean ====
section
/-! SUPPORT. One lemma per field per update of `State`: what each shared operation of Machine/ does to each field. -/

namespace Sys2Proof.Machine

variable (s : State)

/-! ### `State.applyWrite` -/

@[simp] theorem State.cfg_applyWrite (w : RegWrite) : (s.applyWrite w).cfg = s.cfg := rfl
@[simp] theorem State.initd_applyWrite (w : RegWrite) : (s.applyWrite w).initd = s.initd := rfl
@[simp] theorem State.sr_applyWrite (w : RegWrite) : (s.applyWrite w).sr = s.sr := rfl
@[simp] theorem State.nch_applyWrite (w : RegWrite) : (s.applyWrite w).nch = s.nch := rfl
@[simp] theorem State.cap_applyWrite (w : RegWrite) : (s.applyWrite w).cap = s.cap := rfl
@[simp] theorem State.time_applyWrite (w : RegWrite) : (s.applyWrite w).time = s.time.after .time w := rfl
@[simp] theorem State.dry_applyWrite (w : RegWrite) : (s.applyWrite w).dry = s.dry.after .dry w := rfl
@[simp] theorem State.wet_applyWrite (w : RegWrite) : (s.applyWrite w).wet = s.wet.after .wet w := rfl
@[simp] theorem State.feedback_applyWrite (w : RegWrite) : (s.applyWrite w).feedback = s.feedback.after .feedback w := rfl
@[simp] theorem State.zeno_applyWrite (w : RegWrite) : (s.applyWrite w).zeno = s.zeno.after .zeno w := rfl
@[simp] theorem State.pingpong_applyWrite (w : RegWrite) : (s.applyWrite w).pingpong = s.pingpong.after .pingpong w := rfl
@[simp] theorem State.freq_applyWrite (w : RegWrite) : (s.applyWrite w).freq = s.freq.after .freq w := rfl
@[simp] theorem State.bypass_applyWrite (w : RegWrite) : (s.applyWrite w).bypass = s.bypass.after .bypass w := rfl
@[simp] theorem State.maxf_applyWrite (w : RegWrite) : (s.applyWrite w).maxf = s.maxf := rfl
@[simp] theorem State.ctx_applyWrite (w : RegWrite) : (s.applyWrite w).ctx = s.ctx := rfl
@[simp] theorem State.respR_applyWrite (w : RegWrite) : (s.applyWrite w).respR = s.respR := rfl
@[simp] theorem State.respC_applyWrite (w : RegWrite) : (s.applyWrite w).respC = s.respC := rfl
@[simp] theorem State.faultCode_applyWrite (w : RegWrite) : (s.applyWrite w).faultCode = s.faultCode := rfl
@[simp] theorem State.faultInfo_applyWrite (w : RegWrite) : (s.applyWrite w).faultInfo = s.faultInfo := rfl
@[simp] theorem State.faultPort_applyWrite (w : RegWrite) : (s.applyWrite w).faultPort = s.faultPort := rfl
@[simp] theorem State.dlm_applyWrite (w : RegWrite) : (s.applyWrite w).dlm = s.dlm := rfl
@[simp] theorem State.wi_applyWrite (w : RegWrite) : (s.applyWrite w).wi = s.wi := rfl
@[simp] theorem State.phase_applyWrite (w : RegWrite) : (s.applyWrite w).phase = s.phase := rfl
@[simp] theorem State.seq_applyWrite (w : RegWrite) : (s.applyWrite w).seq = s.seq := rfl
@[simp] theorem State.pnch_applyWrite (w : RegWrite) : (s.applyWrite w).pnch = s.pnch := rfl
@[simp] theorem State.pf_applyWrite (w : RegWrite) : (s.applyWrite w).pf = s.pf := rfl
@[simp] theorem State.baseD_applyWrite (w : RegWrite) : (s.applyWrite w).baseD = s.baseD := rfl
@[simp] theorem State.active_applyWrite (w : RegWrite) : (s.applyWrite w).active = s.active := rfl
@[simp] theorem State.gl_applyWrite (w : RegWrite) : (s.applyWrite w).gl = s.gl := rfl
@[simp] theorem State.gr_applyWrite (w : RegWrite) : (s.applyWrite w).gr = s.gr := rfl
@[simp] theorem State.halfR_applyWrite (w : RegWrite) : (s.applyWrite w).halfR = s.halfR := rfl
@[simp] theorem State.halfC_applyWrite (w : RegWrite) : (s.applyWrite w).halfC = s.halfC := rfl
@[simp] theorem State.weakPend_applyWrite (w : RegWrite) : (s.applyWrite w).weakPend = s.weakPend := rfl
@[simp] theorem State.inR_applyWrite (w : RegWrite) : (s.applyWrite w).inR = s.inR := rfl
@[simp] theorem State.inC_applyWrite (w : RegWrite) : (s.applyWrite w).inC = s.inC := rfl
@[simp] theorem State.doneR_applyWrite (w : RegWrite) : (s.applyWrite w).doneR = s.doneR := rfl
@[simp] theorem State.doneC_applyWrite (w : RegWrite) : (s.applyWrite w).doneC = s.doneC := rfl
@[simp] theorem State.inBuf_applyWrite (w : RegWrite) : (s.applyWrite w).inBuf = s.inBuf := rfl
@[simp] theorem State.outBuf_applyWrite (w : RegWrite) : (s.applyWrite w).outBuf = s.outBuf := rfl
@[simp] theorem State.port_applyWrite (w : RegWrite) : (s.applyWrite w).port = s.port := rfl
@[simp] theorem State.draws_applyWrite (w : RegWrite) : (s.applyWrite w).draws = s.draws := rfl
@[simp] theorem State.bypassAhead_applyWrite (w : RegWrite) : (s.applyWrite w).bypassAhead = s.bypassAhead := rfl
@[simp] theorem State.choices_applyWrite (w : RegWrite) : (s.applyWrite w).choices = s.choices := rfl

/-! ### `State.choiceUsed` -/

@[simp] theorem State.cfg_choiceUsed : (s.choiceUsed).cfg = s.cfg := rfl
@[simp] theorem State.initd_choiceUsed : (s.choiceUsed).initd = s.initd := rfl
@[simp] theorem State.sr_choiceUsed : (s.choiceUsed).sr = s.sr := rfl
@[simp] theorem State.nch_choiceUsed : (s.choiceUsed).nch = s.nch := rfl
@[simp] theorem State.cap_choiceUsed : (s.choiceUsed).cap = s.cap := rfl
@[simp] theorem State.time_choiceUsed : (s.choiceUsed).time = s.time := rfl
@[simp] theorem State.dry_choiceUsed : (s.choiceUsed).dry = s.dry := rfl
@[simp] theorem State.wet_choiceUsed : (s.choiceUsed).wet = s.wet := rfl
@[simp] theorem State.feedback_choiceUsed : (s.choiceUsed).feedback = s.feedback := rfl
@[simp] theorem State.zeno_choiceUsed : (s.choiceUsed).zeno = s.zeno := rfl
@[simp] theorem State.pingpong_choiceUsed : (s.choiceUsed).pingpong = s.pingpong := rfl
@[simp] theorem State.freq_choiceUsed : (s.choiceUsed).freq = s.freq := rfl
@[simp] theorem State.bypass_choiceUsed : (s.choiceUsed).bypass = s.bypass := rfl
@[simp] theorem State.maxf_choiceUsed : (s.choiceUsed).maxf = s.maxf := rfl
@[simp] theorem State.ctx_choiceUsed : (s.choiceUsed).ctx = s.ctx := rfl
@[simp] theorem State.respR_choiceUsed : (s.choiceUsed).respR = s.respR := rfl
@[simp] theorem State.respC_choiceUsed : (s.choiceUsed).respC = s.respC := rfl
@[simp] theorem State.faultCode_choiceUsed : (s.choiceUsed).faultCode = s.faultCode := rfl
@[simp] theorem State.faultInfo_choiceUsed : (s.choiceUsed).faultInfo = s.faultInfo := rfl
@[simp] theorem State.faultPort_choiceUsed : (s.choiceUsed).faultPort = s.faultPort := rfl
@[simp] theorem State.dlm_choiceUsed : (s.choiceUsed).dlm = s.dlm := rfl
@[simp] theorem State.wi_choiceUsed : (s.choiceUsed).wi = s.wi := rfl
@[simp] theorem State.phase_choiceUsed : (s.choiceUsed).phase = s.phase := rfl
@[simp] theorem State.seq_choiceUsed : (s.choiceUsed).seq = s.seq := rfl
@[simp] theorem State.pnch_choiceUsed : (s.choiceUsed).pnch = s.pnch := rfl
@[simp] theorem State.pf_choiceUsed : (s.choiceUsed).pf = s.pf := rfl
@[simp] theorem State.baseD_choiceUsed : (s.choiceUsed).baseD = s.baseD := rfl
@[simp] theorem State.active_choiceUsed : (s.choiceUsed).active = s.active := rfl
@[simp] theorem State.gl_choiceUsed : (s.choiceUsed).gl = s.gl := rfl
@[simp] theorem State.gr_choiceUsed : (s.choiceUsed).gr = s.gr := rfl
@[simp] theorem State.halfR_choiceUsed : (s.choiceUsed).halfR = s.halfR := rfl
@[simp] theorem State.halfC_choiceUsed : (s.choiceUsed).halfC = s.halfC := rfl
@[simp] theorem State.weakPend_choiceUsed : (s.choiceUsed).weakPend = s.weakPend := rfl
@[simp] theorem State.inR_choiceUsed : (s.choiceUsed).inR = s.inR := rfl
@[simp] theorem State.inC_choiceUsed : (s.choiceUsed).inC = s.inC := rfl
@[simp] theorem State.doneR_choiceUsed : (s.choiceUsed).doneR = s.doneR := rfl
@[simp] theorem State.doneC_choiceUsed : (s.choiceUsed).doneC = s.doneC := rfl
@[simp] theorem State.inBuf_choiceUsed : (s.choiceUsed).inBuf = s.inBuf := rfl
@[simp] theorem State.outBuf_choiceUsed : (s.choiceUsed).outBuf = s.outBuf := rfl
@[simp] theorem State.port_choiceUsed : (s.choiceUsed).port = s.port := rfl
@[simp] theorem State.draws_choiceUsed : (s.choiceUsed).draws = s.draws + 1 := rfl
@[simp] theorem State.bypassAhead_choiceUsed : (s.choiceUsed).bypassAhead = s.bypassAhead := rfl
@[simp] theorem State.choices_choiceUsed : (s.choiceUsed).choices = s.choices.tail := rfl

/-! ### `State.drawn` -/

@[simp] theorem State.cfg_drawn (n : Nat) : (s.drawn n).cfg = s.cfg := rfl
@[simp] theorem State.initd_drawn (n : Nat) : (s.drawn n).initd = s.initd := rfl
@[simp] theorem State.sr_drawn (n : Nat) : (s.drawn n).sr = s.sr := rfl
@[simp] theorem State.nch_drawn (n : Nat) : (s.drawn n).nch = s.nch := rfl
@[simp] theorem State.cap_drawn (n : Nat) : (s.drawn n).cap = s.cap := rfl
@[simp] theorem State.time_drawn (n : Nat) : (s.drawn n).time = s.time := rfl
@[simp] theorem State.dry_drawn (n : Nat) : (s.drawn n).dry = s.dry := rfl
@[simp] theorem State.wet_drawn (n : Nat) : (s.drawn n).wet = s.wet := rfl
@[simp] theorem State.feedback_drawn (n : Nat) : (s.drawn n).feedback = s.feedback := rfl
@[simp] theorem State.zeno_drawn (n : Nat) : (s.drawn n).zeno = s.zeno := rfl
@[simp] theorem State.pingpong_drawn (n : Nat) : (s.drawn n).pingpong = s.pingpong := rfl
@[simp] theorem State.freq_drawn (n : Nat) : (s.drawn n).freq = s.freq := rfl
@[simp] theorem State.bypass_drawn (n : Nat) : (s.drawn n).bypass = s.bypass := rfl
@[simp] theorem State.maxf_drawn (n : Nat) : (s.drawn n).maxf = s.maxf := rfl
@[simp] theorem State.ctx_drawn (n : Nat) : (s.drawn n).ctx = s.ctx := rfl
@[simp] theorem State.respR_drawn (n : Nat) : (s.drawn n).respR = s.respR := rfl
@[simp] theorem State.respC_drawn (n : Nat) : (s.drawn n).respC = s.respC := rfl
@[simp] theorem State.faultCode_drawn (n : Nat) : (s.drawn n).faultCode = s.faultCode := rfl
@[simp] theorem State.faultInfo_drawn (n : Nat) : (s.drawn n).faultInfo = s.faultInfo := rfl
@[simp] theorem State.faultPort_drawn (n : Nat) : (s.drawn n).faultPort = s.faultPort := rfl
@[simp] theorem State.dlm_drawn (n : Nat) : (s.drawn n).dlm = s.dlm := rfl
@[simp] theorem State.wi_drawn (n : Nat) : (s.drawn n).wi = s.wi := rfl
@[simp] theorem State.phase_drawn (n : Nat) : (s.drawn n).phase = s.phase := rfl
@[simp] theorem State.seq_drawn (n : Nat) : (s.drawn n).seq = s.seq := rfl
@[simp] theorem State.pnch_drawn (n : Nat) : (s.drawn n).pnch = s.pnch := rfl
@[simp] theorem State.pf_drawn (n : Nat) : (s.drawn n).pf = s.pf := rfl
@[simp] theorem State.baseD_drawn (n : Nat) : (s.drawn n).baseD = s.baseD := rfl
@[simp] theorem State.active_drawn (n : Nat) : (s.drawn n).active = s.active := rfl
@[simp] theorem State.gl_drawn (n : Nat) : (s.drawn n).gl = s.gl := rfl
@[simp] theorem State.gr_drawn (n : Nat) : (s.drawn n).gr = s.gr := rfl
@[simp] theorem State.halfR_drawn (n : Nat) : (s.drawn n).halfR = s.halfR := rfl
@[simp] theorem State.halfC_drawn (n : Nat) : (s.drawn n).halfC = s.halfC := rfl
@[simp] theorem State.weakPend_drawn (n : Nat) : (s.drawn n).weakPend = s.weakPend := rfl
@[simp] theorem State.inR_drawn (n : Nat) : (s.drawn n).inR = s.inR := rfl
@[simp] theorem State.inC_drawn (n : Nat) : (s.drawn n).inC = s.inC := rfl
@[simp] theorem State.doneR_drawn (n : Nat) : (s.drawn n).doneR = s.doneR := rfl
@[simp] theorem State.doneC_drawn (n : Nat) : (s.drawn n).doneC = s.doneC := rfl
@[simp] theorem State.inBuf_drawn (n : Nat) : (s.drawn n).inBuf = s.inBuf := rfl
@[simp] theorem State.outBuf_drawn (n : Nat) : (s.drawn n).outBuf = s.outBuf := rfl
@[simp] theorem State.port_drawn (n : Nat) : (s.drawn n).port = s.port := rfl
@[simp] theorem State.draws_drawn (n : Nat) : (s.drawn n).draws = s.draws + n := rfl
@[simp] theorem State.bypassAhead_drawn (n : Nat) : (s.drawn n).bypassAhead = s.bypassAhead := rfl
@[simp] theorem State.choices_drawn (n : Nat) : (s.drawn n).choices = s.choices := rfl

/-! ### `State.setQueue` -/

@[simp] theorem State.cfg_setQueue (p : Port) (ws : List Word) : (s.setQueue p ws).cfg = s.cfg := rfl
@[simp] theorem State.initd_setQueue (p : Port) (ws : List Word) : (s.setQueue p ws).initd = s.initd := rfl
@[simp] theorem State.sr_setQueue (p : Port) (ws : List Word) : (s.setQueue p ws).sr = s.sr := rfl
@[simp] theorem State.nch_setQueue (p : Port) (ws : List Word) : (s.setQueue p ws).nch = s.nch := rfl
@[simp] theorem State.cap_setQueue (p : Port) (ws : List Word) : (s.setQueue p ws).cap = s.cap := rfl
@[simp] theorem State.time_setQueue (p : Port) (ws : List Word) : (s.setQueue p ws).time = s.time := rfl
@[simp] theorem State.dry_setQueue (p : Port) (ws : List Word) : (s.setQueue p ws).dry = s.dry := rfl
@[simp] theorem State.wet_setQueue (p : Port) (ws : List Word) : (s.setQueue p ws).wet = s.wet := rfl
@[simp] theorem State.feedback_setQueue (p : Port) (ws : List Word) : (s.setQueue p ws).feedback = s.feedback := rfl
@[simp] theorem State.zeno_setQueue (p : Port) (ws : List Word) : (s.setQueue p ws).zeno = s.zeno := rfl
@[simp] theorem State.pingpong_setQueue (p : Port) (ws : List Word) : (s.setQueue p ws).pingpong = s.pingpong := rfl
@[simp] theorem State.freq_setQueue (p : Port) (ws : List Word) : (s.setQueue p ws).freq = s.freq := rfl
@[simp] theorem State.bypass_setQueue (p : Port) (ws : List Word) : (s.setQueue p ws).bypass = s.bypass := rfl
@[simp] theorem State.maxf_setQueue (p : Port) (ws : List Word) : (s.setQueue p ws).maxf = s.maxf := rfl
@[simp] theorem State.ctx_setQueue (p : Port) (ws : List Word) : (s.setQueue p ws).ctx = s.ctx := rfl
@[simp] theorem State.respR_setQueue (p : Port) (ws : List Word) : (s.setQueue p ws).respR = s.respR := rfl
@[simp] theorem State.respC_setQueue (p : Port) (ws : List Word) : (s.setQueue p ws).respC = s.respC := rfl
@[simp] theorem State.faultCode_setQueue (p : Port) (ws : List Word) : (s.setQueue p ws).faultCode = s.faultCode := rfl
@[simp] theorem State.faultInfo_setQueue (p : Port) (ws : List Word) : (s.setQueue p ws).faultInfo = s.faultInfo := rfl
@[simp] theorem State.faultPort_setQueue (p : Port) (ws : List Word) : (s.setQueue p ws).faultPort = s.faultPort := rfl
@[simp] theorem State.dlm_setQueue (p : Port) (ws : List Word) : (s.setQueue p ws).dlm = s.dlm := rfl
@[simp] theorem State.wi_setQueue (p : Port) (ws : List Word) : (s.setQueue p ws).wi = s.wi := rfl
@[simp] theorem State.phase_setQueue (p : Port) (ws : List Word) : (s.setQueue p ws).phase = s.phase := rfl
@[simp] theorem State.seq_setQueue (p : Port) (ws : List Word) : (s.setQueue p ws).seq = s.seq := rfl
@[simp] theorem State.pnch_setQueue (p : Port) (ws : List Word) : (s.setQueue p ws).pnch = s.pnch := rfl
@[simp] theorem State.pf_setQueue (p : Port) (ws : List Word) : (s.setQueue p ws).pf = s.pf := rfl
@[simp] theorem State.baseD_setQueue (p : Port) (ws : List Word) : (s.setQueue p ws).baseD = s.baseD := rfl
@[simp] theorem State.active_setQueue (p : Port) (ws : List Word) : (s.setQueue p ws).active = s.active := rfl
@[simp] theorem State.gl_setQueue (p : Port) (ws : List Word) : (s.setQueue p ws).gl = s.gl := rfl
@[simp] theorem State.gr_setQueue (p : Port) (ws : List Word) : (s.setQueue p ws).gr = s.gr := rfl
@[simp] theorem State.halfR_setQueue (p : Port) (ws : List Word) : (s.setQueue p ws).halfR = s.halfR := rfl
@[simp] theorem State.halfC_setQueue (p : Port) (ws : List Word) : (s.setQueue p ws).halfC = s.halfC := rfl
@[simp] theorem State.weakPend_setQueue (p : Port) (ws : List Word) : (s.setQueue p ws).weakPend = s.weakPend := rfl
@[simp] theorem State.inR_setQueue (p : Port) (ws : List Word) : (s.setQueue p ws).inR = if p = .r then ws else s.inR := rfl
@[simp] theorem State.inC_setQueue (p : Port) (ws : List Word) : (s.setQueue p ws).inC = if p = .c then ws else s.inC := rfl
@[simp] theorem State.doneR_setQueue (p : Port) (ws : List Word) : (s.setQueue p ws).doneR = s.doneR := rfl
@[simp] theorem State.doneC_setQueue (p : Port) (ws : List Word) : (s.setQueue p ws).doneC = s.doneC := rfl
@[simp] theorem State.inBuf_setQueue (p : Port) (ws : List Word) : (s.setQueue p ws).inBuf = s.inBuf := rfl
@[simp] theorem State.outBuf_setQueue (p : Port) (ws : List Word) : (s.setQueue p ws).outBuf = s.outBuf := rfl
@[simp] theorem State.port_setQueue (p : Port) (ws : List Word) : (s.setQueue p ws).port = s.port := rfl
@[simp] theorem State.draws_setQueue (p : Port) (ws : List Word) : (s.setQueue p ws).draws = s.draws := rfl
@[simp] theorem State.bypassAhead_setQueue (p : Port) (ws : List Word) : (s.setQueue p ws).bypassAhead = s.bypassAhead := rfl
@[simp] theorem State.choices_setQueue (p : Port) (ws : List Word) : (s.setQueue p ws).choices = s.choices := rfl

/-! ### `State.setHalf` -/

@[simp] theorem State.cfg_setHalf (p : Port) (h : Option RegWrite) : (s.setHalf p h).cfg = s.cfg := rfl
@[simp] theorem State.initd_setHalf (p : Port) (h : Option RegWrite) : (s.setHalf p h).initd = s.initd := rfl
@[simp] theorem State.sr_setHalf (p : Port) (h : Option RegWrite) : (s.setHalf p h).sr = s.sr := rfl
@[simp] theorem State.nch_setHalf (p : Port) (h : Option RegWrite) : (s.setHalf p h).nch = s.nch := rfl
@[simp] theorem State.cap_setHalf (p : Port) (h : Option RegWrite) : (s.setHalf p h).cap = s.cap := rfl
@[simp] theorem State.time_setHalf (p : Port) (h : Option RegWrite) : (s.setHalf p h).time = s.time := rfl
@[simp] theorem State.dry_setHalf (p : Port) (h : Option RegWrite) : (s.setHalf p h).dry = s.dry := rfl
@[simp] theorem State.wet_setHalf (p : Port) (h : Option RegWrite) : (s.setHalf p h).wet = s.wet := rfl
@[simp] theorem State.feedback_setHalf (p : Port) (h : Option RegWrite) : (s.setHalf p h).feedback = s.feedback := rfl
@[simp] theorem State.zeno_setHalf (p : Port) (h : Option RegWrite) : (s.setHalf p h).zeno = s.zeno := rfl
@[simp] theorem State.pingpong_setHalf (p : Port) (h : Option RegWrite) : (s.setHalf p h).pingpong = s.pingpong := rfl
@[simp] theorem State.freq_setHalf (p : Port) (h : Option RegWrite) : (s.setHalf p h).freq = s.freq := rfl
@[simp] theorem State.bypass_setHalf (p : Port) (h : Option RegWrite) : (s.setHalf p h).bypass = s.bypass := rfl
@[simp] theorem State.maxf_setHalf (p : Port) (h : Option RegWrite) : (s.setHalf p h).maxf = s.maxf := rfl
@[simp] theorem State.ctx_setHalf (p : Port) (h : Option RegWrite) : (s.setHalf p h).ctx = s.ctx := rfl
@[simp] theorem State.respR_setHalf (p : Port) (h : Option RegWrite) : (s.setHalf p h).respR = s.respR := rfl
@[simp] theorem State.respC_setHalf (p : Port) (h : Option RegWrite) : (s.setHalf p h).respC = s.respC := rfl
@[simp] theorem State.faultCode_setHalf (p : Port) (h : Option RegWrite) : (s.setHalf p h).faultCode = s.faultCode := rfl
@[simp] theorem State.faultInfo_setHalf (p : Port) (h : Option RegWrite) : (s.setHalf p h).faultInfo = s.faultInfo := rfl
@[simp] theorem State.faultPort_setHalf (p : Port) (h : Option RegWrite) : (s.setHalf p h).faultPort = s.faultPort := rfl
@[simp] theorem State.dlm_setHalf (p : Port) (h : Option RegWrite) : (s.setHalf p h).dlm = s.dlm := rfl
@[simp] theorem State.wi_setHalf (p : Port) (h : Option RegWrite) : (s.setHalf p h).wi = s.wi := rfl
@[simp] theorem State.phase_setHalf (p : Port) (h : Option RegWrite) : (s.setHalf p h).phase = s.phase := rfl
@[simp] theorem State.seq_setHalf (p : Port) (h : Option RegWrite) : (s.setHalf p h).seq = s.seq := rfl
@[simp] theorem State.pnch_setHalf (p : Port) (h : Option RegWrite) : (s.setHalf p h).pnch = s.pnch := rfl
@[simp] theorem State.pf_setHalf (p : Port) (h : Option RegWrite) : (s.setHalf p h).pf = s.pf := rfl
@[simp] theorem State.baseD_setHalf (p : Port) (h : Option RegWrite) : (s.setHalf p h).baseD = s.baseD := rfl
@[simp] theorem State.active_setHalf (p : Port) (h : Option RegWrite) : (s.setHalf p h).active = s.active := rfl
@[simp] theorem State.gl_setHalf (p : Port) (h : Option RegWrite) : (s.setHalf p h).gl = s.gl := rfl
@[simp] theorem State.gr_setHalf (p : Port) (h : Option RegWrite) : (s.setHalf p h).gr = s.gr := rfl
@[simp] theorem State.halfR_setHalf (p : Port) (h : Option RegWrite) : (s.setHalf p h).halfR = if p = .r then h else s.halfR := rfl
@[simp] theorem State.halfC_setHalf (p : Port) (h : Option RegWrite) : (s.setHalf p h).halfC = if p = .c then h else s.halfC := rfl
@[simp] theorem State.weakPend_setHalf (p : Port) (h : Option RegWrite) : (s.setHalf p h).weakPend = s.weakPend := rfl
@[simp] theorem State.inR_setHalf (p : Port) (h : Option RegWrite) : (s.setHalf p h).inR = s.inR := rfl
@[simp] theorem State.inC_setHalf (p : Port) (h : Option RegWrite) : (s.setHalf p h).inC = s.inC := rfl
@[simp] theorem State.doneR_setHalf (p : Port) (h : Option RegWrite) : (s.setHalf p h).doneR = s.doneR := rfl
@[simp] theorem State.doneC_setHalf (p : Port) (h : Option RegWrite) : (s.setHalf p h).doneC = s.doneC := rfl
@[simp] theorem State.inBuf_setHalf (p : Port) (h : Option RegWrite) : (s.setHalf p h).inBuf = s.inBuf := rfl
@[simp] theorem State.outBuf_setHalf (p : Port) (h : Option RegWrite) : (s.setHalf p h).outBuf = s.outBuf := rfl
@[simp] theorem State.port_setHalf (p : Port) (h : Option RegWrite) : (s.setHalf p h).port = s.port := rfl
@[simp] theorem State.draws_setHalf (p : Port) (h : Option RegWrite) : (s.setHalf p h).draws = s.draws := rfl
@[simp] theorem State.bypassAhead_setHalf (p : Port) (h : Option RegWrite) : (s.setHalf p h).bypassAhead = s.bypassAhead := rfl
@[simp] theorem State.choices_setHalf (p : Port) (h : Option RegWrite) : (s.setHalf p h).choices = s.choices := rfl

/-! ### `State.complete` -/

@[simp] theorem State.cfg_complete (p : Port) : (s.complete p).cfg = s.cfg := rfl
@[simp] theorem State.initd_complete (p : Port) : (s.complete p).initd = s.initd := rfl
@[simp] theorem State.sr_complete (p : Port) : (s.complete p).sr = s.sr := rfl
@[simp] theorem State.nch_complete (p : Port) : (s.complete p).nch = s.nch := rfl
@[simp] theorem State.cap_complete (p : Port) : (s.complete p).cap = s.cap := rfl
@[simp] theorem State.time_complete (p : Port) : (s.complete p).time = s.time := rfl
@[simp] theorem State.dry_complete (p : Port) : (s.complete p).dry = s.dry := rfl
@[simp] theorem State.wet_complete (p : Port) : (s.complete p).wet = s.wet := rfl
@[simp] theorem State.feedback_complete (p : Port) : (s.complete p).feedback = s.feedback := rfl
@[simp] theorem State.zeno_complete (p : Port) : (s.complete p).zeno = s.zeno := rfl
@[simp] theorem State.pingpong_complete (p : Port) : (s.complete p).pingpong = s.pingpong := rfl
@[simp] theorem State.freq_complete (p : Port) : (s.complete p).freq = s.freq := rfl
@[simp] theorem State.bypass_complete (p : Port) : (s.complete p).bypass = s.bypass := rfl
@[simp] theorem State.maxf_complete (p : Port) : (s.complete p).maxf = s.maxf := rfl
@[simp] theorem State.ctx_complete (p : Port) : (s.complete p).ctx = s.ctx := rfl
@[simp] theorem State.respR_complete (p : Port) : (s.complete p).respR = s.respR := rfl
@[simp] theorem State.respC_complete (p : Port) : (s.complete p).respC = s.respC := rfl
@[simp] theorem State.faultCode_complete (p : Port) : (s.complete p).faultCode = s.faultCode := rfl
@[simp] theorem State.faultInfo_complete (p : Port) : (s.complete p).faultInfo = s.faultInfo := rfl
@[simp] theorem State.faultPort_complete (p : Port) : (s.complete p).faultPort = s.faultPort := rfl
@[simp] theorem State.dlm_complete (p : Port) : (s.complete p).dlm = s.dlm := rfl
@[simp] theorem State.wi_complete (p : Port) : (s.complete p).wi = s.wi := rfl
@[simp] theorem State.phase_complete (p : Port) : (s.complete p).phase = s.phase := rfl
@[simp] theorem State.seq_complete (p : Port) : (s.complete p).seq = s.seq := rfl
@[simp] theorem State.pnch_complete (p : Port) : (s.complete p).pnch = s.pnch := rfl
@[simp] theorem State.pf_complete (p : Port) : (s.complete p).pf = s.pf := rfl
@[simp] theorem State.baseD_complete (p : Port) : (s.complete p).baseD = s.baseD := rfl
@[simp] theorem State.active_complete (p : Port) : (s.complete p).active = s.active := rfl
@[simp] theorem State.gl_complete (p : Port) : (s.complete p).gl = s.gl := rfl
@[simp] theorem State.gr_complete (p : Port) : (s.complete p).gr = s.gr := rfl
@[simp] theorem State.halfR_complete (p : Port) : (s.complete p).halfR = s.halfR := rfl
@[simp] theorem State.halfC_complete (p : Port) : (s.complete p).halfC = s.halfC := rfl
@[simp] theorem State.weakPend_complete (p : Port) : (s.complete p).weakPend = s.weakPend := rfl
@[simp] theorem State.inR_complete (p : Port) : (s.complete p).inR = s.inR := rfl
@[simp] theorem State.inC_complete (p : Port) : (s.complete p).inC = s.inC := rfl
@[simp] theorem State.doneR_complete (p : Port) : (s.complete p).doneR = if p = .r then s.doneR + 1 else s.doneR := rfl
@[simp] theorem State.doneC_complete (p : Port) : (s.complete p).doneC = if p = .c then s.doneC + 1 else s.doneC := rfl
@[simp] theorem State.inBuf_complete (p : Port) : (s.complete p).inBuf = s.inBuf := rfl
@[simp] theorem State.outBuf_complete (p : Port) : (s.complete p).outBuf = s.outBuf := rfl
@[simp] theorem State.port_complete (p : Port) : (s.complete p).port = s.port := rfl
@[simp] theorem State.draws_complete (p : Port) : (s.complete p).draws = s.draws := rfl
@[simp] theorem State.bypassAhead_complete (p : Port) : (s.complete p).bypassAhead = s.bypassAhead := rfl
@[simp] theorem State.choices_complete (p : Port) : (s.complete p).choices = s.choices := rfl

/-! ### `State.respond` -/

@[simp] theorem State.cfg_respond (p : Port) (v : Word) : (s.respond p v).cfg = s.cfg := rfl
@[simp] theorem State.initd_respond (p : Port) (v : Word) : (s.respond p v).initd = s.initd := rfl
@[simp] theorem State.sr_respond (p : Port) (v : Word) : (s.respond p v).sr = s.sr := rfl
@[simp] theorem State.nch_respond (p : Port) (v : Word) : (s.respond p v).nch = s.nch := rfl
@[simp] theorem State.cap_respond (p : Port) (v : Word) : (s.respond p v).cap = s.cap := rfl
@[simp] theorem State.time_respond (p : Port) (v : Word) : (s.respond p v).time = s.time := rfl
@[simp] theorem State.dry_respond (p : Port) (v : Word) : (s.respond p v).dry = s.dry := rfl
@[simp] theorem State.wet_respond (p : Port) (v : Word) : (s.respond p v).wet = s.wet := rfl
@[simp] theorem State.feedback_respond (p : Port) (v : Word) : (s.respond p v).feedback = s.feedback := rfl
@[simp] theorem State.zeno_respond (p : Port) (v : Word) : (s.respond p v).zeno = s.zeno := rfl
@[simp] theorem State.pingpong_respond (p : Port) (v : Word) : (s.respond p v).pingpong = s.pingpong := rfl
@[simp] theorem State.freq_respond (p : Port) (v : Word) : (s.respond p v).freq = s.freq := rfl
@[simp] theorem State.bypass_respond (p : Port) (v : Word) : (s.respond p v).bypass = s.bypass := rfl
@[simp] theorem State.maxf_respond (p : Port) (v : Word) : (s.respond p v).maxf = s.maxf := rfl
@[simp] theorem State.ctx_respond (p : Port) (v : Word) : (s.respond p v).ctx = s.ctx := rfl
@[simp] theorem State.respR_respond (p : Port) (v : Word) : (s.respond p v).respR = if p = .r then v else s.respR := rfl
@[simp] theorem State.respC_respond (p : Port) (v : Word) : (s.respond p v).respC = if p = .c then v else s.respC := rfl
@[simp] theorem State.faultCode_respond (p : Port) (v : Word) : (s.respond p v).faultCode = s.faultCode := rfl
@[simp] theorem State.faultInfo_respond (p : Port) (v : Word) : (s.respond p v).faultInfo = s.faultInfo := rfl
@[simp] theorem State.faultPort_respond (p : Port) (v : Word) : (s.respond p v).faultPort = s.faultPort := rfl
@[simp] theorem State.dlm_respond (p : Port) (v : Word) : (s.respond p v).dlm = s.dlm := rfl
@[simp] theorem State.wi_respond (p : Port) (v : Word) : (s.respond p v).wi = s.wi := rfl
@[simp] theorem State.phase_respond (p : Port) (v : Word) : (s.respond p v).phase = s.phase := rfl
@[simp] theorem State.seq_respond (p : Port) (v : Word) : (s.respond p v).seq = s.seq := rfl
@[simp] theorem State.pnch_respond (p : Port) (v : Word) : (s.respond p v).pnch = s.pnch := rfl
@[simp] theorem State.pf_respond (p : Port) (v : Word) : (s.respond p v).pf = s.pf := rfl
@[simp] theorem State.baseD_respond (p : Port) (v : Word) : (s.respond p v).baseD = s.baseD := rfl
@[simp] theorem State.active_respond (p : Port) (v : Word) : (s.respond p v).active = s.active := rfl
@[simp] theorem State.gl_respond (p : Port) (v : Word) : (s.respond p v).gl = s.gl := rfl
@[simp] theorem State.gr_respond (p : Port) (v : Word) : (s.respond p v).gr = s.gr := rfl
@[simp] theorem State.halfR_respond (p : Port) (v : Word) : (s.respond p v).halfR = s.halfR := rfl
@[simp] theorem State.halfC_respond (p : Port) (v : Word) : (s.respond p v).halfC = s.halfC := rfl
@[simp] theorem State.weakPend_respond (p : Port) (v : Word) : (s.respond p v).weakPend = s.weakPend := rfl
@[simp] theorem State.inR_respond (p : Port) (v : Word) : (s.respond p v).inR = s.inR := rfl
@[simp] theorem State.inC_respond (p : Port) (v : Word) : (s.respond p v).inC = s.inC := rfl
@[simp] theorem State.doneR_respond (p : Port) (v : Word) : (s.respond p v).doneR = s.doneR := rfl
@[simp] theorem State.doneC_respond (p : Port) (v : Word) : (s.respond p v).doneC = s.doneC := rfl
@[simp] theorem State.inBuf_respond (p : Port) (v : Word) : (s.respond p v).inBuf = s.inBuf := rfl
@[simp] theorem State.outBuf_respond (p : Port) (v : Word) : (s.respond p v).outBuf = s.outBuf := rfl
@[simp] theorem State.port_respond (p : Port) (v : Word) : (s.respond p v).port = s.port := rfl
@[simp] theorem State.draws_respond (p : Port) (v : Word) : (s.respond p v).draws = s.draws := rfl
@[simp] theorem State.bypassAhead_respond (p : Port) (v : Word) : (s.respond p v).bypassAhead = s.bypassAhead := rfl
@[simp] theorem State.choices_respond (p : Port) (v : Word) : (s.respond p v).choices = s.choices := rfl

/-! ### `State.enterFault` -/

@[simp] theorem State.cfg_enterFault (p : Port) (e : TrapCode) (v : Word) : (s.enterFault p e v).cfg = s.cfg := rfl
@[simp] theorem State.initd_enterFault (p : Port) (e : TrapCode) (v : Word) : (s.enterFault p e v).initd = s.initd := rfl
@[simp] theorem State.sr_enterFault (p : Port) (e : TrapCode) (v : Word) : (s.enterFault p e v).sr = s.sr := rfl
@[simp] theorem State.nch_enterFault (p : Port) (e : TrapCode) (v : Word) : (s.enterFault p e v).nch = s.nch := rfl
@[simp] theorem State.cap_enterFault (p : Port) (e : TrapCode) (v : Word) : (s.enterFault p e v).cap = s.cap := rfl
@[simp] theorem State.time_enterFault (p : Port) (e : TrapCode) (v : Word) : (s.enterFault p e v).time = s.time := rfl
@[simp] theorem State.dry_enterFault (p : Port) (e : TrapCode) (v : Word) : (s.enterFault p e v).dry = s.dry := rfl
@[simp] theorem State.wet_enterFault (p : Port) (e : TrapCode) (v : Word) : (s.enterFault p e v).wet = s.wet := rfl
@[simp] theorem State.feedback_enterFault (p : Port) (e : TrapCode) (v : Word) : (s.enterFault p e v).feedback = s.feedback := rfl
@[simp] theorem State.zeno_enterFault (p : Port) (e : TrapCode) (v : Word) : (s.enterFault p e v).zeno = s.zeno := rfl
@[simp] theorem State.pingpong_enterFault (p : Port) (e : TrapCode) (v : Word) : (s.enterFault p e v).pingpong = s.pingpong := rfl
@[simp] theorem State.freq_enterFault (p : Port) (e : TrapCode) (v : Word) : (s.enterFault p e v).freq = s.freq := rfl
@[simp] theorem State.bypass_enterFault (p : Port) (e : TrapCode) (v : Word) : (s.enterFault p e v).bypass = s.bypass := rfl
@[simp] theorem State.maxf_enterFault (p : Port) (e : TrapCode) (v : Word) : (s.enterFault p e v).maxf = s.maxf := rfl
@[simp] theorem State.ctx_enterFault (p : Port) (e : TrapCode) (v : Word) : (s.enterFault p e v).ctx = s.ctx := rfl
@[simp] theorem State.respR_enterFault (p : Port) (e : TrapCode) (v : Word) : (s.enterFault p e v).respR = s.respR := rfl
@[simp] theorem State.respC_enterFault (p : Port) (e : TrapCode) (v : Word) : (s.enterFault p e v).respC = s.respC := rfl
@[simp] theorem State.faultCode_enterFault (p : Port) (e : TrapCode) (v : Word) : (s.enterFault p e v).faultCode = e.number := rfl
@[simp] theorem State.faultInfo_enterFault (p : Port) (e : TrapCode) (v : Word) : (s.enterFault p e v).faultInfo = v := rfl
@[simp] theorem State.faultPort_enterFault (p : Port) (e : TrapCode) (v : Word) : (s.enterFault p e v).faultPort = if p = .c then 1 else 0 := rfl
@[simp] theorem State.dlm_enterFault (p : Port) (e : TrapCode) (v : Word) : (s.enterFault p e v).dlm = s.dlm := rfl
@[simp] theorem State.wi_enterFault (p : Port) (e : TrapCode) (v : Word) : (s.enterFault p e v).wi = s.wi := rfl
@[simp] theorem State.phase_enterFault (p : Port) (e : TrapCode) (v : Word) : (s.enterFault p e v).phase = s.phase := rfl
@[simp] theorem State.seq_enterFault (p : Port) (e : TrapCode) (v : Word) : (s.enterFault p e v).seq = s.seq := rfl
@[simp] theorem State.pnch_enterFault (p : Port) (e : TrapCode) (v : Word) : (s.enterFault p e v).pnch = s.pnch := rfl
@[simp] theorem State.pf_enterFault (p : Port) (e : TrapCode) (v : Word) : (s.enterFault p e v).pf = s.pf := rfl
@[simp] theorem State.baseD_enterFault (p : Port) (e : TrapCode) (v : Word) : (s.enterFault p e v).baseD = s.baseD := rfl
@[simp] theorem State.active_enterFault (p : Port) (e : TrapCode) (v : Word) : (s.enterFault p e v).active = s.active := rfl
@[simp] theorem State.gl_enterFault (p : Port) (e : TrapCode) (v : Word) : (s.enterFault p e v).gl = s.gl := rfl
@[simp] theorem State.gr_enterFault (p : Port) (e : TrapCode) (v : Word) : (s.enterFault p e v).gr = s.gr := rfl
@[simp] theorem State.halfR_enterFault (p : Port) (e : TrapCode) (v : Word) : (s.enterFault p e v).halfR = s.halfR := rfl
@[simp] theorem State.halfC_enterFault (p : Port) (e : TrapCode) (v : Word) : (s.enterFault p e v).halfC = s.halfC := rfl
@[simp] theorem State.weakPend_enterFault (p : Port) (e : TrapCode) (v : Word) : (s.enterFault p e v).weakPend = s.weakPend := rfl
@[simp] theorem State.inR_enterFault (p : Port) (e : TrapCode) (v : Word) : (s.enterFault p e v).inR = s.inR := rfl
@[simp] theorem State.inC_enterFault (p : Port) (e : TrapCode) (v : Word) : (s.enterFault p e v).inC = s.inC := rfl
@[simp] theorem State.doneR_enterFault (p : Port) (e : TrapCode) (v : Word) : (s.enterFault p e v).doneR = s.doneR := rfl
@[simp] theorem State.doneC_enterFault (p : Port) (e : TrapCode) (v : Word) : (s.enterFault p e v).doneC = s.doneC := rfl
@[simp] theorem State.inBuf_enterFault (p : Port) (e : TrapCode) (v : Word) : (s.enterFault p e v).inBuf = s.inBuf := rfl
@[simp] theorem State.outBuf_enterFault (p : Port) (e : TrapCode) (v : Word) : (s.enterFault p e v).outBuf = s.outBuf := rfl
@[simp] theorem State.port_enterFault (p : Port) (e : TrapCode) (v : Word) : (s.enterFault p e v).port = s.port := rfl
@[simp] theorem State.draws_enterFault (p : Port) (e : TrapCode) (v : Word) : (s.enterFault p e v).draws = s.draws := rfl
@[simp] theorem State.bypassAhead_enterFault (p : Port) (e : TrapCode) (v : Word) : (s.enterFault p e v).bypassAhead = s.bypassAhead := rfl
@[simp] theorem State.choices_enterFault (p : Port) (e : TrapCode) (v : Word) : (s.enterFault p e v).choices = s.choices := rfl

/-! ### `State.goto` -/

@[simp] theorem State.cfg_goto (q : Seq) : (s.goto q).cfg = s.cfg := rfl
@[simp] theorem State.initd_goto (q : Seq) : (s.goto q).initd = s.initd := rfl
@[simp] theorem State.sr_goto (q : Seq) : (s.goto q).sr = s.sr := rfl
@[simp] theorem State.nch_goto (q : Seq) : (s.goto q).nch = s.nch := rfl
@[simp] theorem State.cap_goto (q : Seq) : (s.goto q).cap = s.cap := rfl
@[simp] theorem State.time_goto (q : Seq) : (s.goto q).time = s.time := rfl
@[simp] theorem State.dry_goto (q : Seq) : (s.goto q).dry = s.dry := rfl
@[simp] theorem State.wet_goto (q : Seq) : (s.goto q).wet = s.wet := rfl
@[simp] theorem State.feedback_goto (q : Seq) : (s.goto q).feedback = s.feedback := rfl
@[simp] theorem State.zeno_goto (q : Seq) : (s.goto q).zeno = s.zeno := rfl
@[simp] theorem State.pingpong_goto (q : Seq) : (s.goto q).pingpong = s.pingpong := rfl
@[simp] theorem State.freq_goto (q : Seq) : (s.goto q).freq = s.freq := rfl
@[simp] theorem State.bypass_goto (q : Seq) : (s.goto q).bypass = s.bypass := rfl
@[simp] theorem State.maxf_goto (q : Seq) : (s.goto q).maxf = s.maxf := rfl
@[simp] theorem State.ctx_goto (q : Seq) : (s.goto q).ctx = s.ctx := rfl
@[simp] theorem State.respR_goto (q : Seq) : (s.goto q).respR = s.respR := rfl
@[simp] theorem State.respC_goto (q : Seq) : (s.goto q).respC = s.respC := rfl
@[simp] theorem State.faultCode_goto (q : Seq) : (s.goto q).faultCode = s.faultCode := rfl
@[simp] theorem State.faultInfo_goto (q : Seq) : (s.goto q).faultInfo = s.faultInfo := rfl
@[simp] theorem State.faultPort_goto (q : Seq) : (s.goto q).faultPort = s.faultPort := rfl
@[simp] theorem State.dlm_goto (q : Seq) : (s.goto q).dlm = s.dlm := rfl
@[simp] theorem State.wi_goto (q : Seq) : (s.goto q).wi = s.wi := rfl
@[simp] theorem State.phase_goto (q : Seq) : (s.goto q).phase = s.phase := rfl
@[simp] theorem State.seq_goto (q : Seq) : (s.goto q).seq = q := rfl
@[simp] theorem State.pnch_goto (q : Seq) : (s.goto q).pnch = s.pnch := rfl
@[simp] theorem State.pf_goto (q : Seq) : (s.goto q).pf = s.pf := rfl
@[simp] theorem State.baseD_goto (q : Seq) : (s.goto q).baseD = s.baseD := rfl
@[simp] theorem State.active_goto (q : Seq) : (s.goto q).active = s.active := rfl
@[simp] theorem State.gl_goto (q : Seq) : (s.goto q).gl = s.gl := rfl
@[simp] theorem State.gr_goto (q : Seq) : (s.goto q).gr = s.gr := rfl
@[simp] theorem State.halfR_goto (q : Seq) : (s.goto q).halfR = s.halfR := rfl
@[simp] theorem State.halfC_goto (q : Seq) : (s.goto q).halfC = s.halfC := rfl
@[simp] theorem State.weakPend_goto (q : Seq) : (s.goto q).weakPend = s.weakPend := rfl
@[simp] theorem State.inR_goto (q : Seq) : (s.goto q).inR = s.inR := rfl
@[simp] theorem State.inC_goto (q : Seq) : (s.goto q).inC = s.inC := rfl
@[simp] theorem State.doneR_goto (q : Seq) : (s.goto q).doneR = if q = .idle then s.doneR + 1 else s.doneR := rfl
@[simp] theorem State.doneC_goto (q : Seq) : (s.goto q).doneC = s.doneC := rfl
@[simp] theorem State.inBuf_goto (q : Seq) : (s.goto q).inBuf = s.inBuf := rfl
@[simp] theorem State.outBuf_goto (q : Seq) : (s.goto q).outBuf = s.outBuf := rfl
@[simp] theorem State.port_goto (q : Seq) : (s.goto q).port = s.port := rfl
@[simp] theorem State.draws_goto (q : Seq) : (s.goto q).draws = s.draws := rfl
@[simp] theorem State.bypassAhead_goto (q : Seq) : (s.goto q).bypassAhead = s.bypassAhead := rfl
@[simp] theorem State.choices_goto (q : Seq) : (s.goto q).choices = s.choices := rfl

/-! ### `State.begin` -/

@[simp] theorem State.cfg_begin (p : Port) (ws : List Word) : (s.begin p ws).cfg = s.cfg := rfl
@[simp] theorem State.initd_begin (p : Port) (ws : List Word) : (s.begin p ws).initd = s.initd := rfl
@[simp] theorem State.sr_begin (p : Port) (ws : List Word) : (s.begin p ws).sr = s.sr := rfl
@[simp] theorem State.nch_begin (p : Port) (ws : List Word) : (s.begin p ws).nch = s.nch := rfl
@[simp] theorem State.cap_begin (p : Port) (ws : List Word) : (s.begin p ws).cap = s.cap := rfl
@[simp] theorem State.time_begin (p : Port) (ws : List Word) : (s.begin p ws).time = s.time := rfl
@[simp] theorem State.dry_begin (p : Port) (ws : List Word) : (s.begin p ws).dry = s.dry := rfl
@[simp] theorem State.wet_begin (p : Port) (ws : List Word) : (s.begin p ws).wet = s.wet := rfl
@[simp] theorem State.feedback_begin (p : Port) (ws : List Word) : (s.begin p ws).feedback = s.feedback := rfl
@[simp] theorem State.zeno_begin (p : Port) (ws : List Word) : (s.begin p ws).zeno = s.zeno := rfl
@[simp] theorem State.pingpong_begin (p : Port) (ws : List Word) : (s.begin p ws).pingpong = s.pingpong := rfl
@[simp] theorem State.freq_begin (p : Port) (ws : List Word) : (s.begin p ws).freq = s.freq := rfl
@[simp] theorem State.bypass_begin (p : Port) (ws : List Word) : (s.begin p ws).bypass = s.bypass := rfl
@[simp] theorem State.maxf_begin (p : Port) (ws : List Word) : (s.begin p ws).maxf = s.maxf := rfl
@[simp] theorem State.ctx_begin (p : Port) (ws : List Word) : (s.begin p ws).ctx = s.ctx := rfl
@[simp] theorem State.respR_begin (p : Port) (ws : List Word) : (s.begin p ws).respR = s.respR := rfl
@[simp] theorem State.respC_begin (p : Port) (ws : List Word) : (s.begin p ws).respC = s.respC := rfl
@[simp] theorem State.faultCode_begin (p : Port) (ws : List Word) : (s.begin p ws).faultCode = s.faultCode := rfl
@[simp] theorem State.faultInfo_begin (p : Port) (ws : List Word) : (s.begin p ws).faultInfo = s.faultInfo := rfl
@[simp] theorem State.faultPort_begin (p : Port) (ws : List Word) : (s.begin p ws).faultPort = s.faultPort := rfl
@[simp] theorem State.dlm_begin (p : Port) (ws : List Word) : (s.begin p ws).dlm = s.dlm := rfl
@[simp] theorem State.wi_begin (p : Port) (ws : List Word) : (s.begin p ws).wi = s.wi := rfl
@[simp] theorem State.phase_begin (p : Port) (ws : List Word) : (s.begin p ws).phase = s.phase := rfl
@[simp] theorem State.seq_begin (p : Port) (ws : List Word) : (s.begin p ws).seq = s.seq := rfl
@[simp] theorem State.pnch_begin (p : Port) (ws : List Word) : (s.begin p ws).pnch = s.pnch := rfl
@[simp] theorem State.pf_begin (p : Port) (ws : List Word) : (s.begin p ws).pf = s.pf := rfl
@[simp] theorem State.baseD_begin (p : Port) (ws : List Word) : (s.begin p ws).baseD = s.baseD := rfl
@[simp] theorem State.active_begin (p : Port) (ws : List Word) : (s.begin p ws).active = s.active := rfl
@[simp] theorem State.gl_begin (p : Port) (ws : List Word) : (s.begin p ws).gl = s.gl := rfl
@[simp] theorem State.gr_begin (p : Port) (ws : List Word) : (s.begin p ws).gr = s.gr := rfl
@[simp] theorem State.halfR_begin (p : Port) (ws : List Word) : (s.begin p ws).halfR = s.halfR := rfl
@[simp] theorem State.halfC_begin (p : Port) (ws : List Word) : (s.begin p ws).halfC = s.halfC := rfl
@[simp] theorem State.weakPend_begin (p : Port) (ws : List Word) : (s.begin p ws).weakPend = s.weakPend := rfl
@[simp] theorem State.inR_begin (p : Port) (ws : List Word) : (s.begin p ws).inR = if p = .r then ws else s.inR := rfl
@[simp] theorem State.inC_begin (p : Port) (ws : List Word) : (s.begin p ws).inC = if p = .c then ws else s.inC := rfl
@[simp] theorem State.doneR_begin (p : Port) (ws : List Word) : (s.begin p ws).doneR = s.doneR := rfl
@[simp] theorem State.doneC_begin (p : Port) (ws : List Word) : (s.begin p ws).doneC = s.doneC := rfl
@[simp] theorem State.inBuf_begin (p : Port) (ws : List Word) : (s.begin p ws).inBuf = s.inBuf := rfl
@[simp] theorem State.outBuf_begin (p : Port) (ws : List Word) : (s.begin p ws).outBuf = s.outBuf := rfl
@[simp] theorem State.port_begin (p : Port) (ws : List Word) : (s.begin p ws).port = p := rfl
@[simp] theorem State.draws_begin (p : Port) (ws : List Word) : (s.begin p ws).draws = s.draws := rfl
@[simp] theorem State.bypassAhead_begin (p : Port) (ws : List Word) : (s.begin p ws).bypassAhead = s.bypassAhead := rfl
@[simp] theorem State.choices_begin (p : Port) (ws : List Word) : (s.begin p ws).choices = s.choices := rfl

/-! ### `State.allocate` -/

@[simp] theorem State.cfg_allocate (n : Word) (x : Word64) (c : Nat) : (s.allocate n x c).cfg = s.cfg := rfl
@[simp] theorem State.initd_allocate (n : Word) (x : Word64) (c : Nat) : (s.allocate n x c).initd = true := rfl
@[simp] theorem State.sr_allocate (n : Word) (x : Word64) (c : Nat) : (s.allocate n x c).sr = x := rfl
@[simp] theorem State.nch_allocate (n : Word) (x : Word64) (c : Nat) : (s.allocate n x c).nch = n := rfl
@[simp] theorem State.cap_allocate (n : Word) (x : Word64) (c : Nat) : (s.allocate n x c).cap = c := rfl
@[simp] theorem State.time_allocate (n : Word) (x : Word64) (c : Nat) : (s.allocate n x c).time = s.time := rfl
@[simp] theorem State.dry_allocate (n : Word) (x : Word64) (c : Nat) : (s.allocate n x c).dry = s.dry := rfl
@[simp] theorem State.wet_allocate (n : Word) (x : Word64) (c : Nat) : (s.allocate n x c).wet = s.wet := rfl
@[simp] theorem State.feedback_allocate (n : Word) (x : Word64) (c : Nat) : (s.allocate n x c).feedback = s.feedback := rfl
@[simp] theorem State.zeno_allocate (n : Word) (x : Word64) (c : Nat) : (s.allocate n x c).zeno = s.zeno := rfl
@[simp] theorem State.pingpong_allocate (n : Word) (x : Word64) (c : Nat) : (s.allocate n x c).pingpong = s.pingpong := rfl
@[simp] theorem State.freq_allocate (n : Word) (x : Word64) (c : Nat) : (s.allocate n x c).freq = s.freq := rfl
@[simp] theorem State.bypass_allocate (n : Word) (x : Word64) (c : Nat) : (s.allocate n x c).bypass = s.bypass := rfl
@[simp] theorem State.maxf_allocate (n : Word) (x : Word64) (c : Nat) : (s.allocate n x c).maxf = s.maxf := rfl
@[simp] theorem State.ctx_allocate (n : Word) (x : Word64) (c : Nat) : (s.allocate n x c).ctx = s.ctx := rfl
@[simp] theorem State.respR_allocate (n : Word) (x : Word64) (c : Nat) : (s.allocate n x c).respR = s.respR := rfl
@[simp] theorem State.respC_allocate (n : Word) (x : Word64) (c : Nat) : (s.allocate n x c).respC = s.respC := rfl
@[simp] theorem State.faultCode_allocate (n : Word) (x : Word64) (c : Nat) : (s.allocate n x c).faultCode = s.faultCode := rfl
@[simp] theorem State.faultInfo_allocate (n : Word) (x : Word64) (c : Nat) : (s.allocate n x c).faultInfo = s.faultInfo := rfl
@[simp] theorem State.faultPort_allocate (n : Word) (x : Word64) (c : Nat) : (s.allocate n x c).faultPort = s.faultPort := rfl
@[simp] theorem State.dlm_allocate (n : Word) (x : Word64) (c : Nat) : (s.allocate n x c).dlm = s.dlm.zeroBelow (n.toNat * c) := rfl
@[simp] theorem State.wi_allocate (n : Word) (x : Word64) (c : Nat) : (s.allocate n x c).wi = List.replicate n.toNat 0 := rfl
@[simp] theorem State.phase_allocate (n : Word) (x : Word64) (c : Nat) : (s.allocate n x c).phase = s.phase := rfl
@[simp] theorem State.seq_allocate (n : Word) (x : Word64) (c : Nat) : (s.allocate n x c).seq = s.seq := rfl
@[simp] theorem State.pnch_allocate (n : Word) (x : Word64) (c : Nat) : (s.allocate n x c).pnch = s.pnch := rfl
@[simp] theorem State.pf_allocate (n : Word) (x : Word64) (c : Nat) : (s.allocate n x c).pf = s.pf := rfl
@[simp] theorem State.baseD_allocate (n : Word) (x : Word64) (c : Nat) : (s.allocate n x c).baseD = s.baseD := rfl
@[simp] theorem State.active_allocate (n : Word) (x : Word64) (c : Nat) : (s.allocate n x c).active = s.active := rfl
@[simp] theorem State.gl_allocate (n : Word) (x : Word64) (c : Nat) : (s.allocate n x c).gl = s.gl := rfl
@[simp] theorem State.gr_allocate (n : Word) (x : Word64) (c : Nat) : (s.allocate n x c).gr = s.gr := rfl
@[simp] theorem State.halfR_allocate (n : Word) (x : Word64) (c : Nat) : (s.allocate n x c).halfR = s.halfR := rfl
@[simp] theorem State.halfC_allocate (n : Word) (x : Word64) (c : Nat) : (s.allocate n x c).halfC = s.halfC := rfl
@[simp] theorem State.weakPend_allocate (n : Word) (x : Word64) (c : Nat) : (s.allocate n x c).weakPend = s.weakPend := rfl
@[simp] theorem State.inR_allocate (n : Word) (x : Word64) (c : Nat) : (s.allocate n x c).inR = s.inR := rfl
@[simp] theorem State.inC_allocate (n : Word) (x : Word64) (c : Nat) : (s.allocate n x c).inC = s.inC := rfl
@[simp] theorem State.doneR_allocate (n : Word) (x : Word64) (c : Nat) : (s.allocate n x c).doneR = s.doneR := rfl
@[simp] theorem State.doneC_allocate (n : Word) (x : Word64) (c : Nat) : (s.allocate n x c).doneC = s.doneC := rfl
@[simp] theorem State.inBuf_allocate (n : Word) (x : Word64) (c : Nat) : (s.allocate n x c).inBuf = s.inBuf := rfl
@[simp] theorem State.outBuf_allocate (n : Word) (x : Word64) (c : Nat) : (s.allocate n x c).outBuf = s.outBuf := rfl
@[simp] theorem State.port_allocate (n : Word) (x : Word64) (c : Nat) : (s.allocate n x c).port = s.port := rfl
@[simp] theorem State.draws_allocate (n : Word) (x : Word64) (c : Nat) : (s.allocate n x c).draws = s.draws := rfl
@[simp] theorem State.bypassAhead_allocate (n : Word) (x : Word64) (c : Nat) : (s.allocate n x c).bypassAhead = s.bypassAhead := rfl
@[simp] theorem State.choices_allocate (n : Word) (x : Word64) (c : Nat) : (s.allocate n x c).choices = s.choices := rfl

/-! ### `dlAdvance` -/

@[simp] theorem State.cfg_dlAdvance (ch : Nat) : (dlAdvance s ch).cfg = s.cfg := rfl
@[simp] theorem State.initd_dlAdvance (ch : Nat) : (dlAdvance s ch).initd = s.initd := rfl
@[simp] theorem State.sr_dlAdvance (ch : Nat) : (dlAdvance s ch).sr = s.sr := rfl
@[simp] theorem State.nch_dlAdvance (ch : Nat) : (dlAdvance s ch).nch = s.nch := rfl
@[simp] theorem State.cap_dlAdvance (ch : Nat) : (dlAdvance s ch).cap = s.cap := rfl
@[simp] theorem State.time_dlAdvance (ch : Nat) : (dlAdvance s ch).time = s.time := rfl
@[simp] theorem State.dry_dlAdvance (ch : Nat) : (dlAdvance s ch).dry = s.dry := rfl
@[simp] theorem State.wet_dlAdvance (ch : Nat) : (dlAdvance s ch).wet = s.wet := rfl
@[simp] theorem State.feedback_dlAdvance (ch : Nat) : (dlAdvance s ch).feedback = s.feedback := rfl
@[simp] theorem State.zeno_dlAdvance (ch : Nat) : (dlAdvance s ch).zeno = s.zeno := rfl
@[simp] theorem State.pingpong_dlAdvance (ch : Nat) : (dlAdvance s ch).pingpong = s.pingpong := rfl
@[simp] theorem State.freq_dlAdvance (ch : Nat) : (dlAdvance s ch).freq = s.freq := rfl
@[simp] theorem State.bypass_dlAdvance (ch : Nat) : (dlAdvance s ch).bypass = s.bypass := rfl
@[simp] theorem State.maxf_dlAdvance (ch : Nat) : (dlAdvance s ch).maxf = s.maxf := rfl
@[simp] theorem State.ctx_dlAdvance (ch : Nat) : (dlAdvance s ch).ctx = s.ctx := rfl
@[simp] theorem State.respR_dlAdvance (ch : Nat) : (dlAdvance s ch).respR = s.respR := rfl
@[simp] theorem State.respC_dlAdvance (ch : Nat) : (dlAdvance s ch).respC = s.respC := rfl
@[simp] theorem State.faultCode_dlAdvance (ch : Nat) : (dlAdvance s ch).faultCode = s.faultCode := rfl
@[simp] theorem State.faultInfo_dlAdvance (ch : Nat) : (dlAdvance s ch).faultInfo = s.faultInfo := rfl
@[simp] theorem State.faultPort_dlAdvance (ch : Nat) : (dlAdvance s ch).faultPort = s.faultPort := rfl
@[simp] theorem State.dlm_dlAdvance (ch : Nat) : (dlAdvance s ch).dlm = s.dlm := rfl
@[simp] theorem State.wi_dlAdvance (ch : Nat) : (dlAdvance s ch).wi = s.wi.set ch ((s.cursor ch + 1) % s.cap) := rfl
@[simp] theorem State.phase_dlAdvance (ch : Nat) : (dlAdvance s ch).phase = s.phase := rfl
@[simp] theorem State.seq_dlAdvance (ch : Nat) : (dlAdvance s ch).seq = s.seq := rfl
@[simp] theorem State.pnch_dlAdvance (ch : Nat) : (dlAdvance s ch).pnch = s.pnch := rfl
@[simp] theorem State.pf_dlAdvance (ch : Nat) : (dlAdvance s ch).pf = s.pf := rfl
@[simp] theorem State.baseD_dlAdvance (ch : Nat) : (dlAdvance s ch).baseD = s.baseD := rfl
@[simp] theorem State.active_dlAdvance (ch : Nat) : (dlAdvance s ch).active = s.active := rfl
@[simp] theorem State.gl_dlAdvance (ch : Nat) : (dlAdvance s ch).gl = s.gl := rfl
@[simp] theorem State.gr_dlAdvance (ch : Nat) : (dlAdvance s ch).gr = s.gr := rfl
@[simp] theorem State.halfR_dlAdvance (ch : Nat) : (dlAdvance s ch).halfR = s.halfR := rfl
@[simp] theorem State.halfC_dlAdvance (ch : Nat) : (dlAdvance s ch).halfC = s.halfC := rfl
@[simp] theorem State.weakPend_dlAdvance (ch : Nat) : (dlAdvance s ch).weakPend = s.weakPend := rfl
@[simp] theorem State.inR_dlAdvance (ch : Nat) : (dlAdvance s ch).inR = s.inR := rfl
@[simp] theorem State.inC_dlAdvance (ch : Nat) : (dlAdvance s ch).inC = s.inC := rfl
@[simp] theorem State.doneR_dlAdvance (ch : Nat) : (dlAdvance s ch).doneR = s.doneR := rfl
@[simp] theorem State.doneC_dlAdvance (ch : Nat) : (dlAdvance s ch).doneC = s.doneC := rfl
@[simp] theorem State.inBuf_dlAdvance (ch : Nat) : (dlAdvance s ch).inBuf = s.inBuf := rfl
@[simp] theorem State.outBuf_dlAdvance (ch : Nat) : (dlAdvance s ch).outBuf = s.outBuf := rfl
@[simp] theorem State.port_dlAdvance (ch : Nat) : (dlAdvance s ch).port = s.port := rfl
@[simp] theorem State.draws_dlAdvance (ch : Nat) : (dlAdvance s ch).draws = s.draws := rfl
@[simp] theorem State.bypassAhead_dlAdvance (ch : Nat) : (dlAdvance s ch).bypassAhead = s.bypassAhead := rfl
@[simp] theorem State.choices_dlAdvance (ch : Nat) : (dlAdvance s ch).choices = s.choices := rfl

end Sys2Proof.Machine
end

