-- ==== Sys2Proof/Laws/Ops.lean ====
section
/-! SUPPORT. For each shared operation, once, everything it can answer. -/

namespace Sys2Proof.Machine

/-! ### The end of a command or micro-step -/

@[simp] theorem settle_ok (p : Port) (s t : State) : settle p s (.ok t) = .next t := rfl

@[simp] theorem settle_trap (p : Port) (s : State) (e : TrapCode) (v : Word) :
    settle p s (.error (.trap e v)) = .next (s.enterFault p e v) := rfl

@[simp] theorem settle_stop (p : Port) (s : State) (f : Fault) : settle p s (.error (.stop f)) = .fault f := rfl

/-- A command or micro-step that answers a next state either did its work or entered a fault from where it started. -/
theorem settle_next {p : Port} {s t : State} {b : Except Raise State} (h : settle p s b = .next t) :
    b = .ok t ∨ ∃ e v, b = .error (.trap e v) ∧ t = s.enterFault p e v := by
  rcases b with (⟨e, v⟩ | f) | u
  · exact .inr ⟨e, v, rfl, by simpa using h.symm⟩
  · simp [settle] at h
  · exact .inl (by simpa using h)

/-- It never refuses. -/
theorem settle_ne_refused (p : Port) (s : State) (b : Except Raise State) (r : Refusal) : settle p s b ≠ .refused r := by
  rcases b with (⟨e, v⟩ | f) | u <;> simp [settle]

/-! ### Checks and register reads -/

@[simp] theorem require_true (e : TrapCode) (v : Word) : require true e v = .ok () := rfl

@[simp] theorem require_false (e : TrapCode) (v : Word) : require false e v = .error (.trap e v) := rfl

theorem require_ok {b : Bool} {e : TrapCode} {v : Word} {u : Unit} (h : require b e v = .ok u) : b = true := by
  cases b
  · cases h
  · rfl

theorem Reg64.read_ok {x : Reg64} {id : Word} {v : Word64} (h : x.read id = .ok v) :
    x.loWritten = true ∧ x.hiWritten = true ∧ v = joinWords x.lo x.hi := by
  simp only [Reg64.read] at h
  split at h
  · rename_i hw
    exact ⟨hw.1, hw.2, (Except.ok.inj h).symm⟩
  · cases h

theorem Reg32.read_ok {x : Reg32} {id v : Word} (h : x.read id = .ok v) : x.written = true ∧ v = x.val := by
  simp only [Reg32.read] at h
  split at h
  · rename_i hw
    exact ⟨hw, (Except.ok.inj h).symm⟩
  · cases h

theorem Flag.read_ok {x : Flag} {id : Word} {b : Bool} (h : x.read id = .ok b) : x.written = true ∧ b = x.val := by
  simp only [Flag.read] at h
  split at h
  · rename_i hw
    exact ⟨hw, (Except.ok.inj h).symm⟩
  · cases h

theorem Reg64.read_written {x : Reg64} (id : Word) (hl : x.loWritten = true) (hh : x.hiWritten = true) :
    x.read id = .ok (joinWords x.lo x.hi) := by simp [Reg64.read, hl, hh]

theorem Reg32.read_written {x : Reg32} (id : Word) (h : x.written = true) : x.read id = .ok x.val := by
  simp [Reg32.read, h]

theorem Flag.read_written {x : Flag} (id : Word) (h : x.written = true) : x.read id = .ok x.val := by
  simp [Flag.read, h]

/-! ### Registers after a write event -/

/-- A write event of another register leaves a binary64 register alone. -/
theorem Reg64.after_other {x : Reg64} {r : Wide} {w : RegWrite} (hl : w.slot ≠ .lo r) (hh : w.slot ≠ .hi r) :
    x.after r w = x := by simp [Reg64.after, hl, hh]

theorem Reg64.after_lo (x : Reg64) (r : Wide) (v : Word) :
    x.after r ⟨.lo r, v⟩ = { x with lo := v, loWritten := true } := by simp [Reg64.after]

theorem Reg64.after_hi (x : Reg64) (r : Wide) (v : Word) :
    x.after r ⟨.hi r, v⟩ = { x with hi := v, hiWritten := true } := by simp [Reg64.after]

/-- A write event of another slot leaves a 1-bit register alone. -/
theorem Flag.after_other {x : Flag} {k : Slot} {w : RegWrite} (h : w.slot ≠ k) : x.after k w = x := by
  simp [Flag.after, h]

/-- A write event of another slot leaves a 32-bit register alone. -/
theorem Reg32.after_other {x : Reg32} {k : Slot} {w : RegWrite} (h : w.slot ≠ k) : x.after k w = x := by
  simp [Reg32.after, h]

/-- A write event acts on a binary64 register through that register alone. -/
@[simp] theorem State.wide_applyWrite (s : State) (w : RegWrite) (r : Wide) :
    (s.applyWrite w).wide r = (s.wide r).after r w := by cases r <;> rfl

/-- Written marks survive a write event (10_state.md R46). -/
theorem Reg64.after_keeps_marks (x : Reg64) (r : Wide) (w : RegWrite) :
    (x.loWritten = true → (x.after r w).loWritten = true) ∧ (x.hiWritten = true → (x.after r w).hiWritten = true) := by
  constructor <;> intro h <;> simp [Reg64.after, h]

theorem Flag.after_keeps_mark (x : Flag) (k : Slot) (w : RegWrite) (h : x.written = true) :
    (x.after k w).written = true := by
  simp only [Flag.after]
  split
  · rfl
  · exact h

theorem Reg32.after_keeps_mark (x : Reg32) (k : Slot) (w : RegWrite) (h : x.written = true) :
    (x.after k w).written = true := by
  simp only [Reg32.after]
  split
  · rfl
  · exact h

/-! ### Halves of a 64-bit value -/

theorem getLsbD_joinWords (lo hi : Word) (i : Nat) :
    (joinWords lo hi).getLsbD i = if i < 32 then lo.getLsbD i else hi.getLsbD (i - 32) := by
  have h := BitVec.getLsbD_append (x := hi) (y := lo) (i := i)
  exact h

theorem joinWords_parts (x : Word64) : joinWords (lowWord x) (highWord x) = x := by
  apply BitVec.eq_of_getLsbD_eq
  intro i hi
  rw [getLsbD_joinWords]
  by_cases h : i < 32
  · simp [h, lowWord]
  · have e : 32 + (i - 32) = i := by omega
    have l : i - 32 < 32 := by omega
    simp [h, highWord, e, l]

theorem lowWord_joinWords (lo hi : Word) : lowWord (joinWords lo hi) = lo := by
  apply BitVec.eq_of_getLsbD_eq
  intro i h
  simp [lowWord, getLsbD_joinWords, h]

theorem highWord_joinWords (lo hi : Word) : highWord (joinWords lo hi) = hi := by
  apply BitVec.eq_of_getLsbD_eq
  intro i h
  simp [highWord, getLsbD_joinWords, h]

/-! ### The delay line -/

theorem dlRead_ok {s : State} {ch off : Nat} {v : Word} (h : dlRead s ch off = .ok v) :
    ch < s.nch.toNat ∧ 1 ≤ off ∧ off ≤ s.cap ∧ s.tapIndex ch off < s.cfg.dlmWords ∧ v = s.dlm.read (s.tapIndex ch off) := by
  simp only [dlRead] at h
  split at h
  · rename_i hc
    exact ⟨hc.1, hc.2.1, hc.2.2.1, hc.2.2.2, (Except.ok.inj h).symm⟩
  · cases h

theorem dlWrite_ok {s t : State} {ch : Nat} {v : Word} (h : dlWrite s ch v = .ok t) :
    ch < s.nch.toNat ∧ s.lineIndex ch (s.cursor ch) < s.cfg.dlmWords ∧
      t = { s with dlm := s.dlm.write (s.lineIndex ch (s.cursor ch)) v } := by
  simp only [dlWrite] at h
  split at h
  · rename_i hc
    exact ⟨hc.1, hc.2, (Except.ok.inj h).symm⟩
  · cases h

/-! ### SETBYP and GETBYP -/

/-- A SETBYP that is not pending draws nothing; a pending one changes the choice used and the view that GETBYP has. -/
theorem State.drawBypassView_cases (s : State) :
    (¬(s.port = .c ∧ s.cfg.weakVis = true) ∧ s.drawBypassView = s) ∨
      (s.port = .c ∧ s.cfg.weakVis = true ∧
        s.drawBypassView = { s.choiceUsed with bypassAhead := decide (s.choice % 2 = 1) }) := by
  unfold State.drawBypassView
  split
  · rename_i h
    exact .inr ⟨h.1, h.2, rfl⟩
  · rename_i h
    exact .inl ⟨h, rfl⟩

/-- What a GETBYP sees does not depend on the responses, the completions, the words of a port or the choices still to
come. -/
theorem State.bypassView_congr {s t : State} (hp : t.port = s.port) (hc : t.cfg = s.cfg) (hw : t.weakPend = s.weakPend)
    (ha : t.bypassAhead = s.bypassAhead) (hb : t.bypass = s.bypass) : t.bypassView = s.bypassView := by
  have hfold : ∀ (l : List RegWrite) (u v : State), u.bypass = v.bypass →
      (l.foldl State.applyWrite u).bypass = (l.foldl State.applyWrite v).bypass := by
    intro l
    induction l with
    | nil => exact fun _ _ h => h
    | cons w l ih => exact fun u v h => ih _ _ (by simp [h])
  simp only [State.bypassView, State.bypassPending, State.withPending, hp, hc, hw, ha, hb]
  rw [hfold s.weakPend t s hb]
  congr

/-! ### The agent that moves -/

theorem State.pick_none {s : State} : s.pick = none ↔ s.enabled = [] := by
  simp only [State.pick]
  split <;> simp_all

/-- The agent picked is one that can move, and picking it changes only the choices used. -/
theorem State.pick_some {s s' : State} {t : Turn} (h : s.pick = some (t, s')) :
    t ∈ s.enabled ∧ (s' = s ∨ s' = s.choiceUsed) := by
  simp only [State.pick] at h
  split at h
  · cases h
  · rename_i u hu
    cases h
    exact ⟨by simp [hu], .inl rfl⟩
  · rename_i u v more hu
    have h1 := (Prod.mk.inj (Option.some.inj h))
    refine ⟨?_, .inr h1.2.symm⟩
    rw [← h1.1, hu]
    rw [List.getD_eq_getElem (hn := Nat.mod_lt _ (by simp))]
    exact List.getElem_mem _

end Sys2Proof.Machine
end

