-- ==== Sys2Proof/Laws/PerInstr.lean ====
section
/-! SUPPORT. Statements about every command as syntax, one lemma per constructor. -/

namespace Sys2Proof.Laws

/-- A command has its command word and exactly its row's operand words, 1 to 6 words in all (30_encoding.md R112), and the
command word's opcode is its row's. -/
def WordCount.Statement (i : Instr) : Prop :=
  (encode i).length = 1 + i.op.operandCount ∧ (encode i).length ≤ maxWords ∧ i.op.selects (commandWord i) = true

/-- A row's own pattern selects it (30_encoding.md R103). -/
theorem WordCount.selects_pattern (o : Op) : Op.selects o.pattern o = true := by cases o <;> decide

theorem WordCount.init (a b : Word) (sr : Word64) : WordCount.Statement (.init a b sr) := ⟨rfl, Nat.le_of_ble_eq_true rfl, WordCount.selects_pattern .init⟩

theorem WordCount.deinit : WordCount.Statement .deinit := ⟨rfl, Nat.le_of_ble_eq_true rfl, WordCount.selects_pattern .deinit⟩

theorem WordCount.setbyp (b : Bool) : WordCount.Statement (.setbyp b) := by
  cases b <;> exact ⟨rfl, by decide, by decide⟩

theorem WordCount.getbyp : WordCount.Statement .getbyp := ⟨rfl, Nat.le_of_ble_eq_true rfl, WordCount.selects_pattern .getbyp⟩

/-- Every parameter address leaves the row's fixed bits as they are. -/
theorem WordCount.selects_setp : ∀ pa : BitVec 4, Op.selects (commandWord (.setp pa 0)) .setp = true := by decide

/-- Every parameter address leaves the row's fixed bits as they are. -/
theorem WordCount.selects_getp : ∀ pa : BitVec 4, Op.selects (commandWord (.getp pa)) .getp = true := by decide

theorem WordCount.setp (pa : BitVec 4) (v : Word) : WordCount.Statement (.setp pa v) :=
  ⟨rfl, Nat.le_of_ble_eq_true rfl, WordCount.selects_setp pa⟩

theorem WordCount.getp (pa : BitVec 4) : WordCount.Statement (.getp pa) := ⟨rfl, Nat.le_of_ble_eq_true rfl, WordCount.selects_getp pa⟩

theorem WordCount.setmaxf (n : Word) : WordCount.Statement (.setmaxf n) := ⟨rfl, Nat.le_of_ble_eq_true rfl, WordCount.selects_pattern .setmaxf⟩

theorem WordCount.getmaxf : WordCount.Statement .getmaxf := ⟨rfl, Nat.le_of_ble_eq_true rfl, WordCount.selects_pattern .getmaxf⟩

theorem WordCount.process (a b f : Word) (t : Word64) : WordCount.Statement (.process a b f t) :=
  ⟨rfl, Nat.le_of_ble_eq_true rfl, WordCount.selects_pattern .process⟩

theorem WordCount.event (t : Word64) (g a b : Word) : WordCount.Statement (.event t g a b) :=
  ⟨rfl, Nat.le_of_ble_eq_true rfl, WordCount.selects_pattern .event⟩

theorem WordCount.setctx (h : Word64) : WordCount.Statement (.setctx h) := ⟨rfl, Nat.le_of_ble_eq_true rfl, WordCount.selects_pattern .setctx⟩

end Sys2Proof.Laws
end

