-- ==== Sys2Proof/Laws/Render.lean ====
section
/-! SUPPORT. What an ordinary end of BLOCK_BEGIN, FRAME_BEGIN, CHSTEP and INIT says of the state it started from and of
the state it gives. -/

namespace Sys2Proof.Machine

/-- Two computations in a row end ordinarily only if both do. -/
theorem bind_ok {α β : Type} {x : Except Raise α} {f : α → Except Raise β} {b : β} (h : (x >>= f) = .ok b) :
    ∃ a, x = .ok a ∧ f a = .ok b := by
  cases x with
  | error e => cases h
  | ok a => exact ⟨a, rfl, h⟩

/-- A clamped value lies between its bounds. -/
theorem clampI_bounds (v : RoundedValue) {lo hi : Int} (h : lo ≤ hi) : lo ≤ clampI v lo hi ∧ clampI v lo hi ≤ hi := by
  cases v with
  | minusInf => exact ⟨le_refl lo, h⟩
  | plusInf => exact ⟨h, le_refl hi⟩
  | int z => simp only [clampI]; split <;> (try split) <;> omega

/-- The base delay of a block lies in `[1, CAP − 1]` (10_state.md R54). -/
theorem baseDelay_bounds {s : State} {d : Nat} (hc : 2 ≤ s.cap) (h : baseDelay s = .ok d) : 1 ≤ d ∧ d + 1 ≤ s.cap := by
  obtain ⟨t, -, h⟩ := bind_ok h
  split at h
  · cases h
  · rename_i r _
    have hb := clampI_bounds r (lo := 1) (hi := (s.cap : Int) - 1) (by omega)
    cases h
    omega

/-- A BLOCK_BEGIN that raises no fault found the block initialised, its channels allocated and its frames within the bound
(44_render.md R191), and either bypassed it or began it. -/
theorem blockBegin_ok {a b f : Word} {s t : State} (h : blockBegin a b f s = .ok t) :
    s.initd = true ∧ a = b ∧ a.toNat ≤ s.nch.toNat ∧ s.maxf.written = true ∧ f.toNat ≤ s.maxf.val.toNat ∧
      s.bypass.written = true ∧
      ((s.bypass.val = true ∧
          t = ({ s with pnch := a, pf := f, outBuf := copyBlock s.inBuf a.toNat f.toNat s.outBuf }).goto .idle) ∨
        (s.bypass.val = false ∧ ∃ d, baseDelay s = .ok d ∧
          t = ({ s with pnch := a, pf := f, baseD := d }).goto (if 0 < f.toNat then .frame 0 else .idle))) := by
  obtain ⟨_, h1, h⟩ := bind_ok h
  obtain ⟨_, h2, h⟩ := bind_ok h
  obtain ⟨_, h3, h⟩ := bind_ok h
  obtain ⟨m, h4, h⟩ := bind_ok h
  obtain ⟨_, h5, h⟩ := bind_ok h
  obtain ⟨b, h6, h⟩ := bind_ok h
  obtain ⟨hm, rfl⟩ := Reg32.read_ok h4
  obtain ⟨hb, rfl⟩ := Flag.read_ok h6
  refine ⟨require_ok h1, by simpa using require_ok h2, by simpa using require_ok h3, hm, by simpa using require_ok h5, hb, ?_⟩
  split at h
  · rename_i hv
    exact .inl ⟨hv, (Except.ok.inj h).symm⟩
  · rename_i hv
    obtain ⟨d, hd, h⟩ := bind_ok h
    exact .inr ⟨by simpa using hv, d, hd, (Except.ok.inj h).symm⟩

/-- A FRAME_BEGIN that raises no fault writes the latches, the phase and the sequencer only (44_render.md R194). -/
theorem frameBegin_ok {i : Nat} {s t : State} (h : frameBegin i s = .ok t) :
    s.pingpong.written = true ∧ ∃ q p n, q = (if 0 < s.pnch.toNat then Seq.chan i 0 else s.afterFrame i) ∧
      (pingpongActive s.pingpong.val s.pnch = false → p = s.phase) ∧
      t = ({ s with
        active := pingpongActive s.pingpong.val s.pnch
        phase := p, gl := t.gl, gr := t.gr, draws := n }).goto q := by
  obtain ⟨pp, h1, h⟩ := bind_ok h
  obtain ⟨hw, rfl⟩ := Flag.read_ok h1
  refine ⟨hw, ?_⟩
  simp only at h
  split at h
  · rename_i ha
    obtain ⟨f, -, h⟩ := bind_ok h
    cases h
    exact ⟨_, _, _, rfl, by simp [ha], by rw [ha]; rfl⟩
  · rename_i ha
    have ha' : pingpongActive s.pingpong.val s.pnch = false := by simpa using ha
    cases h
    exact ⟨_, s.phase, s.draws, rfl, fun _ => rfl, by rw [ha']; rfl⟩

/-- A CHSTEP that raises no fault writes one word of `DLM` at the cursor, one word of `OUT`, the cursor and the sequencer
(44_render.md R195 to R202). -/
theorem chStep_ok {i ch : Nat} {s t : State} (h : chStep i ch s = .ok t) :
    ch < s.nch.toNat ∧ s.lineIndex ch (s.cursor ch) < s.cfg.dlmWords ∧ ∃ wv out n,
      t = ((dlAdvance { s with
          dlm := s.dlm.write (s.lineIndex ch (s.cursor ch)) wv
          outBuf := s.outBuf.write (sampleIndex ch i) out } ch).drawn n).goto (s.afterChannel i ch) := by
  obtain ⟨_, -, h⟩ := bind_ok h
  obtain ⟨_, -, h⟩ := bind_ok h
  obtain ⟨_, -, h⟩ := bind_ok h
  obtain ⟨_, -, h⟩ := bind_ok h
  obtain ⟨_, -, h⟩ := bind_ok h
  obtain ⟨u, hu, h⟩ := bind_ok h
  obtain ⟨h1, h2, rfl⟩ := dlWrite_ok hu
  exact ⟨h1, h2, _, _, _, (Except.ok.inj h).symm⟩

/-- The capacity INIT accepts (45_interface.md R230): at least 2, and the lines fit the memory and the channel limit. -/
theorem initCapacity_ok {c : Config} {d : Nat} {a b : Word} {sr : Word64} {cap : Nat}
    (h : initCapacity c d a b sr = .ok cap) :
    a = b ∧ 2 ≤ cap ∧ a.toNat ≤ c.maxCh ∧ a.toNat * cap ≤ c.dlmWords := by
  obtain ⟨_, h1, h⟩ := bind_ok h
  obtain ⟨_, -, h⟩ := bind_ok h
  obtain ⟨_, -, h⟩ := bind_ok h
  obtain ⟨_, h2, h⟩ := bind_ok h
  obtain ⟨_, h3, h⟩ := bind_ok h
  obtain ⟨_, h4, h⟩ := bind_ok h
  cases h
  exact ⟨by simpa using require_ok h1, by simpa using require_ok h2, by simpa using require_ok h3,
    by simpa using require_ok h4⟩

/-- The tap offsets of a base delay lie in `[1, d]` (42_delay_line.md R157). -/
theorem zenoOffsets_bounds (fuel d : Nat) : ∀ off ∈ zenoOffsets fuel d, 1 ≤ off ∧ off ≤ d := by
  induction fuel generalizing d with
  | zero => simp [zenoOffsets]
  | succ fuel ih =>
    intro off h
    simp only [zenoOffsets] at h
    split at h
    · simp at h
    · rcases List.mem_cons.1 h with rfl | h
      · omega
      · have := ih (d / 2) off h
        omega

/-- The bypass copy keeps the one form of `OUT`. -/
theorem copyFrame_wf (input : Memory) (i n : Nat) (out : Memory) (h : out.wf) : (copyFrame input i n out).wf := by
  induction n with
  | zero => exact h
  | succ n ih => exact Memory.write_wf _ _ _ ih

/-- The bypass copy keeps the one form of `OUT`. -/
theorem copyBlock_wf (input : Memory) (n f : Nat) (out : Memory) (h : out.wf) : (copyBlock input n f out).wf := by
  induction f with
  | zero => exact h
  | succ f ih => exact copyFrame_wf input f n _ ih

end Sys2Proof.Machine
end

