-- ==== Sys2Proof/Laws/Step.lean ====
section
/-! SUPPORT. Everything a step, an event and a command can do, once. -/

namespace Sys2Proof.Machine

/-- What port `p` does with its words, by what the decoder says of them. -/
theorem acceptOn_run {p : Port} {ws rest : List Word} {i : Instr} :
    acceptOn p ws = .run i rest ↔ decodeOn p ws = .ok (i, rest) := by
  simp only [acceptOn]
  split <;> simp_all

/-- A step that answers a next state: the block waited, or one agent, picked, made its event. -/
theorem step_next {s t : State} (h : step s = .next t) :
    s.faulted = false ∧
      ((s.pick = none ∧ t = s) ∨
        ∃ u s', s.pick = some (u, s') ∧ (s' = s ∨ s' = s.choiceUsed) ∧ eventStep (s'.eventOf u) s' = .next t) := by
  simp only [step] at h
  split at h
  · cases h
  · rename_i hf
    refine ⟨by simpa using hf, ?_⟩
    split at h
    · rename_i hp
      exact .inl ⟨hp, (Host.Outcome.next.inj h).symm⟩
    · rename_i u s' hp
      exact .inr ⟨u, s', hp, (State.pick_some hp).2, h⟩

/-- The event of an agent: a half-write that is pending, a micro-step outside `IDLE`, the next command of an idle port
(20_memory.md R84), or the visibility of a pending write. -/
theorem eventOf_cases (s : State) (u : Turn) :
    (∃ w, s.eventOf u = .half .r w ∧ s.halfR = some w) ∨ (∃ w, s.eventOf u = .half .c w ∧ s.halfC = some w) ∨
      (s.eventOf u = .micro ∧ s.halfR = none ∧ s.seq ≠ .idle) ∨
      (s.eventOf u = .command .r ∧ s.halfR = none ∧ s.seq = .idle) ∨ (s.eventOf u = .command .c ∧ s.halfC = none) ∨
      s.eventOf u = .visibility := by
  cases u with
  | render =>
    cases hR : s.halfR with
    | some w => exact .inl ⟨w, by simp [State.eventOf, hR], rfl⟩
    | none =>
      by_cases hs : s.seq = .idle
      · exact .inr (.inr (.inr (.inl ⟨by simp [State.eventOf, hR, hs], rfl, hs⟩)))
      · exact .inr (.inr (.inl ⟨by simp [State.eventOf, hR, hs], rfl, hs⟩))
  | control =>
    cases hC : s.halfC with
    | some w => exact .inr (.inl ⟨w, by simp [State.eventOf, hC], rfl⟩)
    | none => exact .inr (.inr (.inr (.inr (.inl ⟨by simp [State.eventOf, hC], rfl⟩))))
  | visibility => exact .inr (.inr (.inr (.inr (.inr rfl))))

/-- The next command of a port that answers a next state: the port waited, an illegal word entered a fault, or a command
was executed. -/
theorem commandStep_next {p : Port} {s t : State} (h : commandStep p s = .next t) :
    t = s ∨ (∃ w rest, acceptOn p (s.queue p) = .illegal w rest ∧ t = (s.setQueue p rest).enterFault p .illegalCmd w) ∨
      ∃ i rest, acceptOn p (s.queue p) = .run i rest ∧ exec i (s.begin p rest) = .next t := by
  simp only [commandStep] at h
  split at h
  · exact .inl (Host.Outcome.next.inj h).symm
  · rename_i w rest hw
    exact .inr (.inl ⟨w, rest, hw, (Host.Outcome.next.inj h).symm⟩)
  · rename_i i rest hi
    exact .inr (.inr ⟨i, rest, hi, h⟩)

/-- A visibility event applies a pending write and takes it out of the set, or finds none (20_memory.md R86). -/
theorem applyPending_cases (s : State) :
    s.applyPending = s ∨ ∃ (u : State) (w x : RegWrite), (u = s ∨ u = s.choiceUsed) ∧ w ∈ s.weakPend ∧ x ∈ s.weakPend ∧
      w.slot = x.slot ∧
      s.applyPending = { u.applyWrite w with weakPend := s.weakPend.eraseP fun y => y.slot = x.slot } := by
  simp only [State.applyPending]
  split
  · exact .inl rfl
  · rename_i x hx
    split
    · exact .inl rfl
    · rename_i w hw
      refine .inr ⟨_, w, x, ?_, List.mem_of_find?_eq_some hw, List.mem_of_getElem? hx, ?_, rfl⟩
      · split
        · exact .inl rfl
        · exact .inr rfl
      · simpa using List.find?_some hw

end Sys2Proof.Machine
end

