-- ==== Sys2Proof/Tests/Slice0.lean ====
section
/-! SUPPORT. Small tests of single steps, with values from the spec's own vectors (95_test_vectors.md, 30_encoding.md
R116), and one witness for the hypotheses of each statement of Certificates/Slice0/Obligations.lean. -/

namespace Sys2Proof.Tests

set_option Elab.async false

open Sys2Proof Sys2Proof.Machine Sys2Proof.Claims

/-! ### States the tests share -/

/-- The next state of an answer. -/
def nextOf (a : Answer) : Option State :=
  match a with
  | .next t => some t
  | .fault _ => none
  | .refused _ => none

/-- An answer with a next state is one. -/
theorem exists_next {a : Answer} (h : (nextOf a).isSome = true) : ∃ t, a = .next t := by
  cases a with
  | next t => exact ⟨t, rfl⟩
  | fault f => cases h
  | refused r => cases h

/-- The next state of a command executed by port R. -/
def afterR (i : Instr) (s : State) : Option State := nextOf (exec i { s with port := .r })

/-- The fault registers of an answer: code, info, port. -/
def faultOf (a : Answer) : Option (BitVec 8 × Word × BitVec 1) :=
  (nextOf a).map fun t => (t.faultCode, t.faultInfo, t.faultPort)

/-- The set-up `S(4.0, 2)` of 95_test_vectors.md V9 with every parameter written: `TIME` 0.5, `DRY` and `WET` 1.0,
`FEEDBACK` 0.5, zeno off, ping-pong on, `FREQ` 1.0, and cursors 0 and 11. -/
def ready : State :=
  { State.reset with
    initd := true, sr := 0x4010000000000000, nch := 2, cap := 12, wi := [0, 11]
    maxf := ⟨16, true⟩, bypass := ⟨false, true⟩
    time := ⟨0, 0x3FE00000, true, true⟩, dry := ⟨0, 0x3FF00000, true, true⟩, wet := ⟨0, 0x3FF00000, true, true⟩
    feedback := ⟨0, 0x3FE00000, true, true⟩
    zeno := ⟨false, true⟩, pingpong := ⟨true, true⟩, freq := ⟨0x3F800000, true⟩ }

/-- A block of 2 channels and 3 frames of `ready` at its first frame. -/
def atFrame : State := { ready with seq := .frame 0, pnch := 2, pf := 3, baseD := 2 }

/-- The same block at the last channel of its last frame. -/
def atChan : State := { atFrame with seq := .chan 2 1 }

/-- The same with zeno on and `FEEDBACK` never written. -/
def atChanZeno : State := { atChan with zeno := ⟨true, true⟩, feedback := .unwritten }

/-- `ready` under `WEAK_VIS`, port C executing. -/
def weak : State := { ready with cfg := { Config.source with weakVis := true }, port := .c }

/-- The invariant of a concrete state whose parameters and memories are those of `ready`. -/
theorem ready_inv : ready.Inv := by
  refine ⟨by decide, by decide, by decide, by decide, by decide, by decide, by decide, by decide, by decide, by decide,
    by decide, by decide, by decide, ?_, ?_, by decide, by decide⟩ <;> intro w h <;> cases h

theorem atFrame_inv : atFrame.Inv := by
  refine ⟨by decide, by decide, by decide, by decide, by decide, by decide, by decide, by decide, by decide, by decide,
    by decide, by decide, by decide, ?_, ?_, by decide, by decide⟩ <;> intro w h <;> cases h

theorem atChan_inv : atChan.Inv := by
  refine ⟨by decide, by decide, by decide, by decide, by decide, by decide, by decide, by decide, by decide, by decide,
    by decide, by decide, by decide, ?_, ?_, by decide, by decide⟩ <;> intro w h <;> cases h

theorem atChanZeno_inv : atChanZeno.Inv := by
  refine ⟨by decide, by decide, by decide, by decide, by decide, by decide, by decide, by decide, by decide, by decide,
    by decide, by decide, by decide, ?_, ?_, by decide, by decide⟩ <;> intro w h <;> cases h

/-! ### Well-formedness (30_encoding.md R101): port C refuses each port R command -/

theorem test_illformed_init : (Instr.init 1 1 0).wellFormed .c = false := by decide
theorem test_illformed_deinit : Instr.deinit.wellFormed .c = false := by decide
theorem test_illformed_setmaxf : (Instr.setmaxf 1).wellFormed .c = false := by decide
theorem test_illformed_getmaxf : Instr.getmaxf.wellFormed .c = false := by decide
theorem test_illformed_process : (Instr.process 1 1 1 0).wellFormed .c = false := by decide
theorem test_illformed_event : (Instr.event 0 1 1 1).wellFormed .c = false := by decide
theorem test_illformed_setctx : (Instr.setctx 1).wellFormed .c = false := by decide
theorem test_wellformed_control :
    ((Instr.setbyp true).wellFormed .c && Instr.getbyp.wellFormed .c && (Instr.setp 15 0).wellFormed .c &&
      (Instr.getp 15).wellFormed .c) = true := by decide

/-! ### Decoding: words written out from 30_encoding.md R103 to R107 and R116 -/

theorem test_decode_init :
    decodeOn .r [0x01000000, 1, 1, 0, 0x40E58880] = .ok (.init 1 1 0x40E5888000000000, []) := by decide
theorem test_decode_deinit : decodeOn .r [0x02000000, 7] = .ok (.deinit, [7]) := by decide
theorem test_decode_setbyp : decodeOn .c [0x03000001] = .ok (.setbyp true, []) := by decide
theorem test_decode_setbyp_clear : decodeOn .r [0x03000000] = .ok (.setbyp false, []) := by decide
theorem test_decode_getbyp : decodeOn .c [0x04000000] = .ok (.getbyp, []) := by decide
theorem test_decode_setp : decodeOn .r [0x05000000, 0x3C23D70A] = .ok (.setp 0 0x3C23D70A, []) := by decide
theorem test_decode_setp_edge : decodeOn .c [0x05F00000, 1] = .ok (.setp 15 1, []) := by decide
theorem test_decode_getp : decodeOn .r [0x06600000] = .ok (.getp 6, []) := by decide
theorem test_decode_setmaxf : decodeOn .r [0x07000000, 0x3E8] = .ok (.setmaxf 1000, []) := by decide
theorem test_decode_getmaxf : decodeOn .r [0x08000000] = .ok (.getmaxf, []) := by decide
theorem test_decode_process :
    decodeOn .r [0x09000000, 1, 1, 0x3E8, 5, 6] = .ok (.process 1 1 1000 0x0000000600000005, []) := by decide
theorem test_decode_event :
    decodeOn .r [0x0A000000, 5, 6, 1, 2, 0x3F800000] = .ok (.event 0x0000000600000005 1 2 0x3F800000, []) := by decide
theorem test_decode_setctx : decodeOn .r [0x0B000000, 0x1234, 1] = .ok (.setctx 0x0000000100001234, []) := by decide

/-- The illegal words of 95_test_vectors.md V1, and a command whose operands have not arrived. -/
theorem test_decode_rejects :
    decodeOn .r [0x00000000] = .error .unassignedOpcode ∧ decodeOn .r [0x0C000000] = .error .unassignedOpcode ∧
      decodeOn .c [0xFF000000] = .error .unassignedOpcode ∧ decodeOn .r [0x01100000] = .error .strayParameterAddress ∧
      decodeOn .r [0x05010000] = .error .reservedField ∧ decodeOn .r [0x03000002] = .error .strayImmediate ∧
      decodeOn .c [0x06000001] = .error .strayImmediate ∧ decodeOn .c [0x09000000] = .error .wrongPort ∧
      decodeOn .c [0x07000000] = .error .wrongPort ∧ decodeOn .r [0x07000000] = .error .truncated := by decide

/-- The opcode table's numbering: bit 0 is the low bit of the first word. -/
theorem test_decode_table_word : decodeTableWord 64 0x42C8000005100000 = some (.setp 1 0x42C80000) := by decide

/-! ### Single steps -/

/-- V3: `INIT 1, 1, 44100.0` gives `CAP = 132300`. -/
theorem test_init_capacity : (afterR (.init 1 1 0x40E5888000000000) .reset).map (·.cap) = some 132300 := by
  decide +kernel

/-- V3: `INIT 1, 1, 0.5` would have `CAP` 1. -/
theorem test_init_bad_rate : faultOf (exec (.init 1 1 0x3FE0000000000000) .reset) = some (3, 0x3FE00000, 0) := by
  decide +kernel

/-- V11. -/
theorem test_deinit_keeps_lines : (afterR .deinit ready).map (fun t => (t.initd, t.nch, t.doneR)) = some (true, 2, 1) := by
  decide +kernel

/-- V11: `SETBYP 1`. -/
theorem test_setbyp : (afterR (.setbyp true) .reset).map (·.bypass) = some ⟨true, true⟩ := by decide +kernel

/-- V11: GETBYP on port C writes `RESP_C`, not `RESP_R`. -/
theorem test_getbyp_control :
    (nextOf (exec .getbyp { ready with bypass := ⟨true, true⟩, port := .c, respR := 9 })).map
      (fun t => (t.respC, t.respR)) = some (1, 9) := by decide +kernel

/-- V11: GETBYP after reset. -/
theorem test_getbyp_unwritten : faultOf (exec .getbyp .reset) = some (8, 16, 0) := by decide +kernel

/-- V10: `SETP dry, 33.3` of a `DRY` of 1.0, high half first: a torn 0x3FD54FDF00000000 between its events. -/
theorem test_setp_high_half_first :
    (afterR (.setp 1 0x42053333) { ready with choices := [1] }).map (fun t => (t.dry.hi, t.dry.lo, t.halfR)) =
      some (0x3FD54FDF, 0, some ⟨.lo .dry, 0x33333333⟩) := by decide +kernel

/-- V2: a NaN is true. -/
theorem test_setp_zeno_nan : (afterR (.setp 4 0x7FC00000) .reset).map (·.zeno) = some ⟨true, true⟩ := by decide +kernel

/-- T8: 50.0 per cent is stored as 0.5 and read back as 50.0. -/
theorem test_getp_percentage : (afterR (.getp 3) ready).map (·.respR) = some 0x42480000 := by decide +kernel

/-- V2: `GETP dry` after reset. -/
theorem test_getp_unwritten : faultOf (exec (.getp 1) .reset) = some (8, 1, 0) := by decide +kernel

/-- V11. -/
theorem test_setmaxf : (afterR (.setmaxf 1000) .reset).map (·.maxf) = some ⟨1000, true⟩ := by decide +kernel

/-- V11. -/
theorem test_getmaxf_unwritten : faultOf (exec .getmaxf .reset) = some (8, 17, 0) := by decide +kernel

/-- V9: PROCESS before INIT. -/
theorem test_process_not_init : faultOf (exec (.process 1 1 1 0) .reset) = some (2, 0x09000000, 0) := by decide +kernel

/-- P4 block B: the bypass copies the bits of a NaN. -/
theorem test_process_bypass_copies_bits :
    (afterR (.process 1 1 3 0)
      { ready with bypass := ⟨true, true⟩, inBuf := [(0, 0x3F000000), (1, 0xBE800000), (2, 0x7FC00001)] }).map (·.outBuf) =
      some [(0, 0x3F000000), (1, 0xBE800000), (2, 0x7FC00001)] := by decide +kernel

/-- V5: a base delay of 2.5 samples rounds away from zero to 3. -/
theorem test_base_delay_ties_away :
    (afterR (.process 2 2 3 0) { ready with time := ⟨0, 0x3FE40000, true, true⟩ }).map (fun t => (t.baseD, t.seq)) =
      some (3, .frame 0) := by decide +kernel

/-- V6, frame 1: the phase π/2 gives `GL` 0 and `GR` 1, and moves on to 0x40490FDB. -/
theorem test_frame_gains :
    (nextOf (microStep { atFrame with phase := 0x3FC90FDB })).map (fun t => (t.gl, t.gr, t.phase, t.seq)) =
      some (0, 0x3F800000, 0x40490FDB, .chan 0 0) := by decide +kernel

/-- P1, frame 4: the tap 0.5 of offset 2 goes to the output, half of it into the line. -/
theorem test_channel_step :
    (nextOf (microStep { atFrame with
      seq := .chan 4 0, pnch := 1, pf := 8, wi := [4, 0], dlm := [(0, 0x3F800000), (2, 0x3F000000)] })).map
      (fun t => (t.outBuf, t.dlm.read 4, t.wi)) = some ([(4, 0x3F000000)], 0x3E800000, [5, 0]) := by decide +kernel

/-- P2b, frame 1: with every input 0.75 the Zeno write is 0x3F55999A and the tap 0x3E2CCCCC. -/
theorem test_channel_step_zeno :
    (nextOf (microStep { atChanZeno with
      seq := .chan 1 0, pnch := 1, pf := 10, baseD := 4, wi := [1, 0], dlm := [(0, 0x3F400000)], dry := ⟨0, 0, true, true⟩
      inBuf := [(1, 0x3F400000)] })).map (fun t => (t.outBuf.read 1, t.dlm.read 1)) = some (0x3E2CCCCC, 0x3F55999A) := by
  decide +kernel

/-- V11. -/
theorem test_event_completes : (afterR (.event 0 1 1 0x3F800000) .reset).map (·.doneR) = some 1 := by decide +kernel

/-- V11. -/
theorem test_setctx : (afterR (.setctx 0x1234) .reset).map (·.ctx) = some 0x1234 := by decide +kernel

/-- A word delivered after reset is the command the next step runs: `SETMAXF 1000`. -/
theorem test_fetch_word :
    (nextOf (step (State.reset.withFetchWord 64 0x000003E807000000))).map (fun t => (t.maxf, t.inR)) =
      some (⟨1000, true⟩, []) := by decide +kernel

/-- V1: an illegal word faults with itself, and the word after it stays. -/
theorem test_illegal_word_keeps_operands :
    (nextOf (step { State.reset with inR := [0x01100000, 5] })).map (fun t => (t.faultCode, t.faultInfo, t.inR)) =
      some (1, 0x01100000, [5]) := by decide +kernel

/-! ### Witnesses: the hypotheses of each statement met together -/

theorem witness_EncodeThenDecode :
    (Instr.setp 15 0x7FC00000).wellFormed .c = true ∧ (Instr.process 1 1 0xFFFFFFFF 0).wellFormed .r = true := by decide

theorem witness_DecodeThenEncode : ∃ i rest, decodeOn .c [0x06F00000, 3] = .ok (i, rest) := ⟨_, _, rfl⟩

theorem witness_AtMostOneRowMatchesAWord :
    Op.selects 0x05F00000 .setp = true ∧ Op.selects 0x03000001 .setbyp = true ∧ Op.selects 0x03000000 .setbyp = true := by
  decide

/-- Clause 1: the nine illegal words of 95_test_vectors.md V1. -/
theorem witness_IllegalWords :
    illegalWord .r 0x00000000 ∧ illegalWord .r 0x0C000000 ∧ illegalWord .r 0x01100000 ∧ illegalWord .r 0x05010000 ∧
      illegalWord .r 0x03000002 ∧ illegalWord .c 0xFF000000 ∧ illegalWord .c 0x06000001 ∧ illegalWord .c 0x09000000 ∧
      illegalWord .c 0x07000000 ∧
      { State.reset with inC := [0x07000000, 4] }.queue .c = [0x07000000, 4] := by
  unfold illegalWord
  exact ⟨by decide, by decide, by decide, by decide, by decide, by decide, by decide, by decide, by decide, by decide⟩

/-- Clause 2: the legal edge words of V1, one that waits for its operand and some that run. -/
theorem witness_LegalWords :
    ¬illegalWord .r 0x05F00000 ∧ ¬illegalWord .c 0x06F00000 ∧ ¬illegalWord .c 0x03000001 ∧
      acceptOn .r [0x05F00000] = .wait ∧ acceptOn .c [0x06F00000] = .run (.getp 15) [] := by
  unfold illegalWord
  exact ⟨by decide, by decide, by decide, by decide, by decide⟩

/-- Both ports can move; the prescribed choice 1 picks port C. -/
theorem witness_StepRunsDecodedCommand :
    ∃ s s' : State, s.faulted = false ∧ s.pick = some (.control, s') ∧ s'.eventOf .control = .command .c ∧
      decodeOn .c (s'.queue .c) = .ok (.getbyp, []) :=
  ⟨{ ready with inR := [0x02000000], inC := [0x04000000], choices := [1] },
    { ready with inR := [0x02000000], inC := [0x04000000], choices := [], draws := 1 }, by decide, by decide, by decide,
    by decide⟩

/-- Each clause: a half-write of port R, a micro-step, an illegal word of port R, a half-write of port C, a word of port C
and a pending write. -/
theorem witness_StepMakesThePendingEvent :
    { ready with halfR := some ⟨.hi .dry, 5⟩ }.pick = some (.render, { ready with halfR := some ⟨.hi .dry, 5⟩ }) ∧
      atChan.pick = some (.render, atChan) ∧ atChan.halfR = none ∧ atChan.seq ≠ .idle ∧
      { ready with inR := [0x0C000000] }.pick = some (.render, { ready with inR := [0x0C000000] }) ∧
      { ready with halfC := some ⟨.hi .dry, 5⟩ }.pick = some (.control, { ready with halfC := some ⟨.hi .dry, 5⟩ }) ∧
      { ready with inC := [0x07000000] }.pick = some (.control, { ready with inC := [0x07000000] }) ∧
      { weak with weakPend := [⟨.zeno, 1⟩] }.pick = some (.visibility, { weak with weakPend := [⟨.zeno, 1⟩] }) ∧
      ready.faulted = false :=
  ⟨rfl, rfl, rfl, by decide, rfl, rfl, rfl, rfl, rfl⟩

theorem witness_DeliveredCommandRunsNext :
    decodeTableWord 192 0x0000000000000000000003E8000000010000000109000000 = some (.process 1 1 1000 0) := by decide

theorem witness_FinalStateKeepsStill : State.reset.final = true ∧ ready.final = true := by decide

theorem witness_AnyEnabledAgentMayMove :
    { atFrame with cfg := weak.cfg, inC := [0x04000000], weakPend := [⟨.zeno, 1⟩] }.enabled =
      [.render, .control, .visibility] := by decide

theorem witness_InvariantHoldsAtReset : Config.source.wf ∧ { Config.source with maxCh := 1, dlmWords := 2 }.wf := by decide

theorem witness_EveryStepKeepsInvariant :
    (atChan.Inv ∧ ∃ t, step atChan = .next t) ∧ atFrame.Inv ∧ ∃ t, step atFrame = .next t :=
  ⟨⟨atChan_inv, exists_next (by decide +kernel)⟩, atFrame_inv, exists_next (by decide +kernel)⟩

theorem witness_UnfaultedStepGoesOn : atChanZeno.Inv ∧ atChanZeno.faulted = false := ⟨atChanZeno_inv, by decide⟩

theorem witness_StepKeepsConfigAndInput : ∃ t, step atChan = .next t := exists_next (by decide +kernel)

/-- Clause 1 at a GETMAXF after reset, clause 2 at a CHSTEP whose `DRY` is unwritten. -/
theorem witness_FaultingStepHasNoOtherEffect :
    State.reset.faulted = false ∧ (nextOf (exec .getmaxf .reset)).map State.faulted = some true ∧
      atChan.faulted = false ∧ (nextOf (microStep { atChan with dry := .unwritten })).map State.faulted = some true := by
  decide +kernel

theorem witness_WrittenMarksNeverClear :
    (∃ t, step { ready with inR := [0x05000000, 0] } = .next t) ∧ (ready.wide .time).loWritten = true ∧
      ready.zeno.written = true ∧ ready.maxf.written = true :=
  ⟨exists_next (by decide +kernel), by decide, by decide, by decide⟩

theorem witness_PhaseMovesOnlyInActiveFrames :
    (nextOf (step atFrame)).map (fun t => t.phase != atFrame.phase) = some true := by decide +kernel

theorem witness_ControlPortLeavesDatapathAlone :
    ∃ t, exec (.setp 1 0x42053333) { atChan with port := .c } = .next t := exists_next (by decide +kernel)

theorem witness_MicroStepWritesNoRegister : ∃ t, microStep atFrame = .next t := exists_next (by decide +kernel)

theorem witness_RenderCommandOnControlPortIsIllegal :
    { ready with port := .c }.port = .c ∧ (Instr.init 1 1 0).wellFormed .c = false ∧
      (Instr.setctx 0).wellFormed .c = false := by decide

/-- `INIT` at both ends of the channel counts, and at the least capacity (95_test_vectors.md V3). -/
theorem witness_InitAllocatesSilentLines :
    ∀ x ∈ [((0 : Word), (0x40E5888000000000 : Word64), 132300), (8, 0x4010000000000000, 12), (1, 0x3FE5555555555555, 2)],
      State.reset.port = .r ∧ lt64 0 x.2.1 = true ∧ x.2.1 ≠ posInf64 ∧
        mul64 State.reset.cfg.ftz State.reset.draws x.2.1 State.reset.cfg.capSeconds ≠ posInf64 ∧
        x.2.2 = (floor64 (mul64 State.reset.cfg.ftz State.reset.draws x.2.1 State.reset.cfg.capSeconds)).toNat ∧
        2 ≤ x.2.2 ∧ x.1.toNat ≤ State.reset.cfg.maxCh ∧ x.1.toNat * x.2.2 ≤ State.reset.cfg.dlmWords := by
  decide +kernel

/-- Each clause at a row of 95_test_vectors.md V3. -/
theorem witness_InitFaultsInOrder :
    faultOf (exec (.init 1 2 0x40E5888000000000) .reset) = some (4, 1, 0) ∧
      faultOf (exec (.init 1 1 0) .reset) = some (3, 0, 0) ∧
      faultOf (exec (.init 1 1 0x7FF0000000000000) .reset) = some (3, 0x7FF00000, 0) ∧
      faultOf (exec (.init 1 1 0x7FE1CCF385EBC8A0) .reset) = some (6, 0xFFFFFFFF, 0) ∧
      faultOf (exec (.init 1 1 0x3FE0000000000000) .reset) = some (3, 0x3FE00000, 0) ∧
      faultOf (exec (.init 9 9 0x40E5888000000000) .reset) = some (5, 9, 0) ∧
      faultOf (exec (.init 8 8 0x412E848000000000) .reset) = some (6, 3000000, 0) ∧ State.reset.port = .r := by
  decide +kernel

theorem witness_RenderPortCommands :
    State.reset.port = .r ∧ State.reset.maxf.written = false ∧ ready.port = .r ∧ ready.maxf.written = true := by decide

theorem witness_SetbypStoresTheFlag :
    writesAtOnce ready ∧ writesAtOnce { ready with port := .c } ∧ weak.port = .c ∧ weak.cfg.weakVis = true := by
  unfold writesAtOnce
  decide

/-- Both clauses with nothing pending, and with a pending SETBYP that GETBYP sees or does not. -/
theorem witness_GetbypAnswersTheFlag :
    ready.bypassView = ready.bypass ∧ ready.bypass.written = true ∧ State.reset.bypassView.written = false ∧
      { weak with weakPend := [⟨.bypass, 1⟩], bypass := .unwritten, bypassAhead := true }.bypassView = ⟨true, true⟩ ∧
      { weak with weakPend := [⟨.bypass, 1⟩], bypass := .unwritten }.bypassView.written = false := by
  decide

/-- The two draws of a pending SETBYP. -/
theorem witness_SetbypDrawsTheView :
    (nextOf (exec (.setbyp true) { weak with choices := [1] })).map (·.bypassAhead) = some true ∧
      (nextOf (exec (.setbyp true) { weak with choices := [0] })).map (·.bypassAhead) = some false := by decide +kernel

/-- The four binary64 registers. -/
theorem witness_SetpWritesOneHalfFirst :
    paramAt 0 = some (.wide .time) ∧ paramAt 1 = some (.wide .dry) ∧ paramAt 2 = some (.wide .wet) ∧
      paramAt 3 = some (.wide .feedback) ∧ writesAtOnce { ready with port := .c } := by
  unfold writesAtOnce
  decide

/-- A register written before, and one never written. -/
theorem witness_SetpBothEventsStoreTheValue :
    paramAt 1 = some (.wide .dry) ∧ writesAtOnce ready ∧ bothWritten (ready.wide .dry) ∧
      (∃ t, exec (.setp 1 0x42053333) ready = .next t) ∧ ∃ t, exec (.setp 1 0x42053333) State.reset = .next t := by
  unfold writesAtOnce bothWritten
  exact ⟨by decide, by decide, by decide, exists_next (by decide +kernel), exists_next (by decide +kernel)⟩

theorem witness_SetpStoresSmallRegisters : writesAtOnce ready ∧ writesAtOnce { State.reset with port := .c } := by
  unfold writesAtOnce
  decide

theorem witness_SetpUnderWeakVisibilityIsPending :
    weak.port = .c ∧ weak.cfg.weakVis = true ∧ paramAt 3 = some (.wide .feedback) := by decide

theorem witness_UnknownAddressesAreSilent :
    7 ≤ (7 : BitVec 4).toNat ∧ 7 ≤ (15 : BitVec 4).toNat ∧ paramAt 7 = none ∧ paramAt 6 = some .freq := by decide

/-- Every register written, none written, one half written, and a pending write that port C alone sees. -/
theorem witness_GetpAnswersOrFaults :
    ready.getpView = ready ∧ bothWritten (ready.wide .time) ∧ ready.zeno.written = true ∧ ready.pingpong.written = true ∧
      ready.freq.written = true ∧ ¬bothWritten (State.reset.wide .feedback) ∧ State.reset.zeno.written = false ∧
      ¬bothWritten ({ ready with wet := ⟨0, 0, true, false⟩ }.wide .wet) ∧
      { weak with zeno := .unwritten, weakPend := [⟨.zeno, 0⟩, ⟨.zeno, 1⟩] }.getpView.zeno = ⟨true, true⟩ := by
  unfold bothWritten
  decide

theorem witness_GetpSeesOwnPendingWrites :
    weak.port = .c ∧ weak.cfg.weakVis = true ∧ paramAt 1 = some (.wide .dry) ∧
      (∃ t, exec (.setp 1 0x42053333) weak = .next t) ∧ (∃ t, exec (.setp 4 0x80000000) weak = .next t) ∧
      (∃ t, exec (.setp 5 0x7FC00000) weak = .next t) ∧ ∃ t, exec (.setp 6 0x7FC00001) weak = .next t :=
  ⟨by decide, by decide, by decide, exists_next (by decide +kernel), exists_next (by decide +kernel),
    exists_next (by decide +kernel), exists_next (by decide +kernel)⟩

theorem witness_PendingWriteBecomesVisible :
    { weak with weakPend := [⟨.lo .dry, 1⟩, ⟨.hi .dry, 2⟩, ⟨.lo .dry, 3⟩] }.weakPend ≠ [] ∧
      ({ weak with weakPend := [⟨.lo .dry, 1⟩, ⟨.hi .dry, 2⟩, ⟨.lo .dry, 3⟩], choices := [2] }.applyPending).weakPend =
        [⟨.hi .dry, 2⟩, ⟨.lo .dry, 3⟩] := by decide

theorem witness_WideningIsExact : isNaN32 0x00000001 = false ∧ isNaN32 0xFF800000 = false ∧ isNaN32 0x7F7FFFFF = false := by
  decide +kernel

theorem witness_SetpThenGetpReturnsTheValue :
    writesAtOnce ready ∧ (∃ t, exec (.setp 6 0x7FC00001) ready = .next t) ∧ isNaN32 0x3C23D70A = false ∧
      ready.cfg.ftz = false ∧ (∃ t, exec (.setp 0 0x3C23D70A) ready = .next t) ∧
      ((afterR (.setp 0 0x3C23D70A) ready).bind fun t => t.half .r).isSome = true := by
  unfold writesAtOnce
  exact ⟨by decide, exists_next (by decide +kernel), by decide +kernel, by decide, exists_next (by decide +kernel),
    by decide +kernel⟩

/-- The clause of a NaN `TIME`. -/
theorem witness_SetpThenGetpOfANaN :
    isNaN32 0x7FC00000 = true ∧ (∃ t, exec (.setp 0 0x7FC00000) ready = .next t) ∧
      ((afterR (.setp 0 0x7FC00000) ready).bind fun t => t.half .r).isSome = true :=
  ⟨by decide +kernel, exists_next (by decide +kernel), by decide +kernel⟩

/-- The clauses of percentages and flags: 50 and 33.3 per cent of `WET`, 1.0 of `ZENO` and 0.0 of `PINGPONG`. -/
theorem witness_SetpThenGetpPercentagesAndFlags :
    paramAt 2 = some (.wide .wet) ∧ Wide.wet ≠ .time ∧ ready.cfg.pctScale = 0x4059000000000000 ∧
      (∃ t, exec (.setp 2 0x42480000) ready = .next t) ∧
      ((afterR (.setp 2 0x42480000) ready).bind fun t => t.half .r).isSome = true ∧
      ((afterR (.setp 2 0x42053333) ready).bind fun t => t.half .r).isSome = true ∧
      (∃ t, exec (.setp 4 0x3F800000) ready = .next t) ∧ ∃ t, exec (.setp 5 0) ready = .next t :=
  ⟨by decide, by decide, by decide, exists_next (by decide +kernel), by decide +kernel, by decide +kernel,
    exists_next (by decide +kernel), exists_next (by decide +kernel)⟩

theorem witness_NanDrawsAreNans : isNaN32 0x7F800001 = true ∧ isNaN64 0xFFF8000000000000 = true := by decide +kernel

/-- A tie of the least normal binary32 numbers, and the greatest finite one. -/
theorem witness_RoundingIsToNearestEven :
    0 < 2 ∧ binary32.roundMag false (2 ^ 24 + 1) 2 < binary32.infBits ∧ 0x7F7FFFFF < binary32.infBits ∧
      binary64.roundMag false 1 2 < binary64.infBits := by decide +kernel

/-- The greatest finite operands, a least subnormal, and a sum that is not 0. -/
theorem witness_ConversionsAndArithmeticRoundOnce :
    magOf binary64 0xFFEFFFFFFFFFFFFF < binary64.infBits ∧ magOf binary64 1 < binary64.infBits ∧
      magOf binary64 1 ≠ 0 ∧ valueOf binary64 0xFFEFFFFFFFFFFFFF + valueOf binary64 1 ≠ 0 ∧
      magOf binary32 0xFF7FFFFF < binary32.infBits ∧ valueOf binary32 0xFF7FFFFF - valueOf binary32 1 ≠ 0 := by
  decide +kernel

theorem witness_SineHasTheStatedProperties :
    (0x80000000 : Word).toNat % 2 ^ 31 < 0x7F800000 ∧ (0x7F7FFFFF : Word).toNat % 2 ^ 31 < 0x7F800000 ∧
      0x7F800000 ≤ (0xFF800000 : Word).toNat % 2 ^ 31 := by decide

theorem witness_GainsStayInUnitRange :
    Config.source.panHalf = 0x3F000000 ∧ (0xBF800000 : Word).toNat % 2 ^ 31 ≤ 0x3F800000 := by decide

theorem witness_ZenoWriteIsClamped : Config.source.clampLim = 0x3FF0000000000000 := by decide

/-- The clauses: an unwritten half of `TIME`, a NaN, and a number. -/
theorem witness_BaseDelayIsTheClampedRounding :
    ¬bothWritten ({ ready with time := ⟨0, 0, false, true⟩ }.time) ∧ bothWritten ready.time ∧ 2 ≤ ready.cap ∧
      isNaN64 (mul64 ready.cfg.ftz 0 (joinWords ready.time.lo ready.time.hi) ready.sr) = false ∧
      isNaN64 (mul64 ready.cfg.ftz 0 0x7FF8000000000000 ready.sr) = true := by
  unfold bothWritten
  exact ⟨by decide, by decide, by decide, by decide +kernel, nan64_isNaN 0⟩

/-- Blocks of the most frames, and of none. -/
theorem witness_ProcessBeginsAnActiveBlock :
    ready.port = .r ∧ ready.initd = true ∧ (2 : Word).toNat ≤ ready.nch.toNat ∧ ready.maxf.written = true ∧
      (16 : Word).toNat ≤ ready.maxf.val.toNat ∧ (0 : Word).toNat ≤ ready.maxf.val.toNat ∧ ready.bypass.written = true ∧
      ready.bypass.val = false ∧ baseDelay ready = .ok 2 := by decide +kernel

theorem witness_ProcessBypassCopiesInToOut :
    ∃ s : State, s = { ready with bypass := ⟨true, true⟩, time := .unwritten } ∧ s.port = .r ∧ s.initd = true ∧
      (2 : Word).toNat ≤ s.nch.toNat ∧ s.maxf.written = true ∧ (16 : Word).toNat ≤ s.maxf.val.toNat ∧
      s.bypass.written = true ∧ s.bypass.val = true ∧ s.outBuf.wf :=
  ⟨_, rfl, by decide, by decide, by decide, by decide, by decide, by decide, by decide, by decide⟩

/-- Each clause that needs no NaN, with the values of 95_test_vectors.md V9. -/
theorem witness_ProcessFaultsInOrder :
    faultOf (exec (.process 1 1 1 0) .reset) = some (2, 0x09000000, 0) ∧
      faultOf (exec (.process 2 1 1 0) ready) = some (4, 2, 0) ∧
      faultOf (exec (.process 3 3 1 0) ready) = some (5, 3, 0) ∧
      faultOf (exec (.process 2 2 1 0) { ready with maxf := .unwritten }) = some (8, 17, 0) ∧
      faultOf (exec (.process 2 2 17 0) ready) = some (7, 17, 0) ∧
      faultOf (exec (.process 2 2 16 0) { ready with bypass := .unwritten }) = some (8, 16, 0) ∧
      faultOf (exec (.process 2 2 16 0) { ready with time := ⟨0, 0, true, false⟩ }) = some (8, 0, 0) := by decide +kernel

/-- The last clause: `TIME` is a NaN (V5). -/
theorem witness_ProcessFaultsOnANaN :
    isNaN64 (mul64 ready.cfg.ftz 0 0x7FF8000000000001 ready.sr) = true ∧
      faultOf (exec (.process 2 2 16 0) { ready with time := ⟨1, 0x7FF80000, true, true⟩ }) = some (9, 0x7FF80000, 0) :=
  ⟨nan64_isNaN 0, by decide +kernel⟩

theorem witness_ActiveFrameAdvancesTheOscillator :
    atFrame.seq = .frame 0 ∧ atFrame.pingpong.written = true ∧ atFrame.pingpong.val = true ∧ 2 ≤ atFrame.pnch.toNat ∧
      atFrame.freq.written = true := by decide

/-- Ping-pong off, one channel, no channel. -/
theorem witness_InactiveFrameLeavesTheOscillator :
    { atFrame with pingpong := ⟨false, true⟩ }.pingpong.val = false ∧ { atFrame with pnch := 1 }.pnch.toNat < 2 ∧
      { atFrame with pnch := 0 }.pnch.toNat < 2 ∧ atFrame.pingpong.written = true ∧ atFrame.seq = .frame 0 := by decide

/-- Each clause, with the codes of 95_test_vectors.md V9. -/
theorem witness_BlockMicroStepsFaultInOrder :
    faultOf (microStep { atFrame with pingpong := .unwritten }) = some (8, 5, 0) ∧
      faultOf (microStep { atFrame with freq := .unwritten }) = some (8, 6, 0) ∧
      faultOf (microStep { atChan with zeno := .unwritten }) = some (8, 4, 0) ∧
      faultOf (microStep { atChan with feedback := .unwritten }) = some (8, 3, 0) ∧
      faultOf (microStep { atChan with dry := ⟨0, 0, true, false⟩ }) = some (8, 1, 0) ∧
      faultOf (microStep { atChan with wet := .unwritten }) = some (8, 2, 0) := by decide +kernel

theorem witness_ChannelStepStandard :
    atChan.Inv ∧ atChan.seq = .chan 2 1 ∧ atChan.zeno.written = true ∧ atChan.zeno.val = false ∧
      bothWritten atChan.feedback ∧ bothWritten atChan.dry ∧ bothWritten atChan.wet := by
  unfold bothWritten
  exact ⟨atChan_inv, by decide, by decide, by decide, by decide, by decide, by decide⟩

theorem witness_ChannelStepZeno :
    atChanZeno.Inv ∧ atChanZeno.seq = .chan 2 1 ∧ atChanZeno.zeno.written = true ∧ atChanZeno.zeno.val = true ∧
      bothWritten atChanZeno.dry ∧ bothWritten atChanZeno.wet := by
  unfold bothWritten
  exact ⟨atChanZeno_inv, by decide, by decide, by decide, by decide, by decide⟩

theorem witness_MixGainFollowsThePan : { atFrame with active := true }.active = true ∧ atFrame.active = false := by decide

/-- 95_test_vectors.md V4: the offsets of the base delays 1 and 11. -/
theorem witness_ZenoTapsHalve : 1 ≤ 11 ∧ zenoTaps 1 = [1] ∧ zenoTaps 11 = [11, 5, 2, 1] := by decide +kernel

/-- At the last cursor of a line, where the advance wraps. -/
theorem witness_DelayHistoryShifts :
    ready.Inv ∧ ready.initd = true ∧ ready.cursor 1 = 11 ∧ ∃ t, dlWrite ready 1 0x3F000000 = .ok t :=
  ⟨ready_inv, by decide, by decide, _, rfl⟩

theorem witness_ChannelStepReadsOneInputWord :
    atChan.seq = .chan 2 1 ∧
      Memory.read [(0, 5)] (sampleIndex 1 2) = Memory.read atChan.inBuf (sampleIndex 1 2) ∧
      ∃ t, microStep atChan = .next t :=
  ⟨by decide, by decide, exists_next (by decide +kernel)⟩

theorem witness_BlockEndsInBoundedSteps :
    atFrame.Inv ∧ atFrame.faulted = false ∧ atFrame.seq = .frame 0 ∧ atFrame.controlQuiet = true ∧
      atFrame.blockRegistersWritten = true ∧ blockSteps atFrame = 9 :=
  ⟨atFrame_inv, by decide, by decide, by decide, by decide, by decide⟩

end Sys2Proof.Tests
end

section
/-! PROOFS. No step changes the parameters or `IN` (20_memory.md R73). -/

namespace Sys2Proof.Machine

/-- `t` has the parameters and the `IN` of `s`. -/
def SameFixed (s t : State) : Prop := t.cfg = s.cfg ∧ t.inBuf = s.inBuf

theorem SameFixed.refl (s : State) : SameFixed s s := ⟨rfl, rfl⟩

theorem SameFixed.trans {s t u : State} (h : SameFixed s t) (h' : SameFixed t u) : SameFixed s u :=
  ⟨h'.1.trans h.1, h'.2.trans h.2⟩

/-- Every ordinary end of a command's or micro-step's body has the parameters and the `IN` of `s`. -/
def EndsSameFixed (s : State) (body : Except Raise State) : Prop := ∀ u, body = .ok u → SameFixed s u

theorem EndsSameFixed.ok {s u : State} (h : SameFixed s u) : EndsSameFixed s (.ok u) := by
  rintro _ ⟨⟩
  exact h

theorem EndsSameFixed.bind {α : Type} {s : State} {x : Except Raise α} {f : α → Except Raise State}
    (h : ∀ a, EndsSameFixed s (f a)) : EndsSameFixed s (x >>= f) := fun u hu => by
  obtain ⟨a, -, ha⟩ := bind_ok hu
  exact h a u ha

/-- Fault entry keeps the parameters and `IN`, so a command or micro-step keeps them if its ordinary ends do. -/
theorem settle_sameFixed {p : Port} {s t : State} {b : Except Raise State} (h : settle p s b = .next t)
    (hb : EndsSameFixed s b) : SameFixed s t := by
  rcases settle_next h with hok | ⟨e, v, -, rfl⟩
  · exact hb t hok
  · exact .refl s

theorem issueWrite_sameFixed (s : State) (w : RegWrite) : SameFixed s (s.issueWrite w) := by
  unfold State.issueWrite
  split <;> exact .refl s

theorem drawBypassView_sameFixed (s : State) : SameFixed s s.drawBypassView := by
  rcases s.drawBypassView_cases with ⟨-, h⟩ | ⟨-, -, h⟩ <;> rw [h] <;> exact .refl s

theorem writeWide_sameFixed (s : State) (r : Wide) (x : Word64) : SameFixed s (s.writeWide r x) := by
  unfold State.writeWide
  split
  · exact (issueWrite_sameFixed s ⟨.lo r, lowWord x⟩).trans (issueWrite_sameFixed _ ⟨.hi r, highWord x⟩)
  · exact .refl s

theorem execSetp_sameFixed {pa : BitVec 4} {v : Word} {s t : State} (h : execSetp pa v s = .next t) :
    SameFixed s t := by
  unfold execSetp at h
  split at h <;> cases h
  case h_1 r _ => exact writeWide_sameFixed (s.drawn 2) r _
  case h_5 => exact .refl s
  all_goals exact issueWrite_sameFixed s _

theorem blockBegin_endsSameFixed (a b f : Word) (s : State) : EndsSameFixed s (blockBegin a b f s) := fun u hu => by
  obtain ⟨-, -, -, -, -, -, ⟨-, rfl⟩ | ⟨-, _, -, rfl⟩⟩ := blockBegin_ok hu <;> exact .refl s

theorem frameBegin_endsSameFixed (i : Nat) (s : State) : EndsSameFixed s (frameBegin i s) := fun u hu => by
  obtain ⟨-, _, _, _, -, -, hu⟩ := frameBegin_ok hu
  rw [hu]
  exact .refl s

theorem chStep_endsSameFixed (i ch : Nat) (s : State) : EndsSameFixed s (chStep i ch s) := fun u hu => by
  obtain ⟨-, -, _, _, _, rfl⟩ := chStep_ok hu
  exact .refl s

theorem exec_sameFixed {i : Instr} {s t : State} (h : exec i s = .next t) : SameFixed s t := by
  cases i with
  | init a b sr => exact settle_sameFixed h (.bind fun _ => .bind fun _ => .ok (.refl s))
  | deinit => exact settle_sameFixed h (.bind fun _ => .ok (.refl s))
  | setbyp b =>
    cases h
    exact (drawBypassView_sameFixed s).trans (issueWrite_sameFixed _ ⟨.bypass, bitWord b⟩)
  | getbyp => exact settle_sameFixed h (.bind fun _ => .ok (.refl s))
  | setp pa v => exact execSetp_sameFixed h
  | getp pa => exact settle_sameFixed h (.bind fun _ => .ok (.refl s))
  | setmaxf n => exact settle_sameFixed h (.bind fun _ => .ok (.refl s))
  | getmaxf => exact settle_sameFixed h (.bind fun _ => .bind fun _ => .ok (.refl s))
  | process a b f time => exact settle_sameFixed h (.bind fun _ => blockBegin_endsSameFixed a b f s)
  | event time tag p0 p1 => exact settle_sameFixed h (.bind fun _ => .ok (.refl s))
  | setctx x => exact settle_sameFixed h (.bind fun _ => .ok (.refl s))

theorem microStep_sameFixed {s t : State} (h : microStep s = .next t) : SameFixed s t := by
  unfold microStep at h
  split at h
  · cases h
    exact .refl s
  · exact settle_sameFixed h (frameBegin_endsSameFixed _ s)
  · exact settle_sameFixed h (chStep_endsSameFixed _ _ s)

theorem commandStep_sameFixed {p : Port} {s t : State} (h : commandStep p s = .next t) : SameFixed s t := by
  rcases commandStep_next h with rfl | ⟨_, _, -, rfl⟩ | ⟨i, rest, -, he⟩
  · exact .refl _
  · exact .refl s
  · exact (show SameFixed s (s.begin p rest) from .refl s).trans (exec_sameFixed he)

theorem applyPending_sameFixed (s : State) : SameFixed s s.applyPending := by
  rcases applyPending_cases s with h | ⟨u, _, _, hu, -, -, -, h⟩
  · rw [h]
    exact .refl s
  · rw [h]
    rcases hu with rfl | rfl <;> exact ⟨rfl, rfl⟩

theorem eventStep_sameFixed {e : Event} {s t : State} (h : eventStep e s = .next t) : SameFixed s t := by
  cases e with
  | micro => exact microStep_sameFixed h
  | half p w =>
    cases h
    exact .refl s
  | command p => exact commandStep_sameFixed h
  | visibility =>
    cases h
    exact applyPending_sameFixed s

/-- Settles O16: every event of every agent keeps the parameters and `IN`, and so does the choice of the agent. -/
theorem stepKeepsConfigAndInput : Obligations.StepKeepsConfigAndInput := by
  intro s t h
  obtain ⟨-, ⟨-, rfl⟩ | ⟨u, s', -, rfl | rfl, he⟩⟩ := step_next h
  · exact SameFixed.refl t
  · exact eventStep_sameFixed he
  · exact (show SameFixed s s.choiceUsed from .refl s).trans (eventStep_sameFixed he)

end Sys2Proof.Machine
end

section
/-! PROOFS. The NaN patterns of a format (00_scope.md R13, R16). -/

namespace Sys2Proof.Machine

/-- A pattern is a NaN when its magnitude is above infinity's. -/
theorem Format.datum_eq_nan_iff_lt (f : Format) (bits : Nat) :
    f.datum bits = .nan ↔ f.infBits < bits % f.signBit := by
  simp only [Format.datum]
  split_ifs <;> simp_all

/-- A pattern is a NaN when its exponent field is all ones and its fraction field is not zero. -/
theorem Format.datum_eq_nan_iff (f : Format) (bits : Nat) :
    f.datum bits = .nan ↔ bits / 2 ^ f.frac % 2 ^ f.expo = 2 ^ f.expo - 1 ∧ bits % 2 ^ f.frac ≠ 0 := by
  have hmod : bits % f.signBit = 2 ^ f.frac * (bits / 2 ^ f.frac % 2 ^ f.expo) + bits % 2 ^ f.frac := by
    rw [Format.signBit, Nat.add_comm f.expo, pow_add, Nat.mod_mul, Nat.add_comm]
  have hfrac : bits % 2 ^ f.frac < 2 ^ f.frac := Nat.mod_lt _ (by positivity)
  have hexpo : bits / 2 ^ f.frac % 2 ^ f.expo ≤ 2 ^ f.expo - 1 := Nat.le_sub_one_of_lt (Nat.mod_lt _ (by positivity))
  rw [f.datum_eq_nan_iff_lt, hmod, Format.infBits, Nat.mul_comm _ (2 ^ f.frac)]
  constructor
  · intro h
    have hge : 2 ^ f.expo - 1 ≤ bits / 2 ^ f.frac % 2 ^ f.expo := by
      by_contra hlt
      have := Nat.mul_le_mul_left (2 ^ f.frac) (Nat.succ_le_of_lt (not_le.1 hlt))
      rw [Nat.mul_succ] at this
      omega
    have he := le_antisymm hexpo hge
    rw [he] at h
    exact ⟨he, by omega⟩
  · rintro ⟨he, hm⟩
    rw [he]
    omega

/-- Setting all exponent bits, and a fraction bit unless one is set, makes a NaN. -/
theorem Format.datum_or_eq_nan (f : Format) {x c : Nat} (hc : c / 2 ^ f.frac % 2 ^ f.expo = 2 ^ f.expo - 1)
    (hx : x % 2 ^ f.frac ≠ 0 ∨ c % 2 ^ f.frac ≠ 0) : f.datum (x ||| c) = .nan := by
  refine (f.datum_eq_nan_iff _).2 ⟨?_, ?_⟩
  · rw [Nat.or_div_two_pow, Nat.or_mod_two_pow, hc]
    exact le_antisymm (Nat.le_sub_one_of_lt (Nat.or_lt_two_pow (Nat.mod_lt _ (by positivity))
      (Nat.sub_lt (by positivity) one_pos))) Nat.right_le_or
  · rw [Nat.or_mod_two_pow]
    intro h
    obtain ⟨h1, h2⟩ := Nat.or_eq_zero_iff.1 h
    exact hx.elim (· h1) (· h2)

/-- The exponent bits of a NaN are set already. -/
theorem Format.or_infBits_of_nan (f : Format) {x : Nat} (h : f.datum x = .nan) : x ||| f.infBits = x := by
  obtain ⟨he, -⟩ := (f.datum_eq_nan_iff x).1 h
  refine Nat.eq_of_testBit_eq fun i => ?_
  rw [Nat.testBit_or, Format.infBits, Nat.testBit_mul_two_pow, Nat.testBit_two_pow_sub_one]
  by_cases hi : f.frac ≤ i ∧ i - f.frac < f.expo
  · have hbit := congrArg (Nat.testBit · (i - f.frac)) he
    simp only [Nat.testBit_mod_two_pow, Nat.testBit_div_two_pow, Nat.testBit_two_pow_sub_one, hi.2,
      Nat.sub_add_cancel hi.1, decide_true, Bool.true_and] at hbit
    simp [hbit]
  · have : (decide (f.frac ≤ i) && decide (i - f.frac < f.expo)) = false := by simpa using hi
    simp [this]

theorem isNaN32_iff {x : Word} : isNaN32 x = true ↔ binary32.datum x.toNat = .nan := by
  simp [isNaN32, datum32]

theorem isNaN64_iff {x : Word64} : isNaN64 x = true ↔ binary64.datum x.toNat = .nan := by
  simp [isNaN64, datum64]

/-- The fraction mask of binary32 is a remainder. -/
theorem fraction32_eq_zero_iff (x : Word) : x &&& 0x007FFFFF#32 = 0 ↔ x.toNat % 2 ^ 23 = 0 := by
  rw [← BitVec.toNat_inj, BitVec.toNat_and]
  exact Iff.of_eq (congrArg (· = 0) (Nat.and_two_pow_sub_one_eq_mod x.toNat 23))

/-- The fraction mask of binary64 is a remainder. -/
theorem fraction64_eq_zero_iff (x : Word64) : x &&& 0x000FFFFFFFFFFFFF#64 = 0 ↔ x.toNat % 2 ^ 52 = 0 := by
  rw [← BitVec.toNat_inj, BitVec.toNat_and]
  exact Iff.of_eq (congrArg (· = 0) (Nat.and_two_pow_sub_one_eq_mod x.toNat 52))

/-- Whatever bits are drawn, `asNan32` gives a NaN. -/
theorem asNan32_isNaN (x : Word) : isNaN32 (asNan32 x) = true := by
  rw [isNaN32_iff, asNan32]
  split
  · rw [BitVec.toNat_or]
    exact binary32.datum_or_eq_nan (by decide) (.inr (by decide))
  · rename_i h
    rw [BitVec.toNat_or]
    exact binary32.datum_or_eq_nan (by decide) (.inl (mt (fraction32_eq_zero_iff x).2 h))

/-- A binary32 NaN is its own draw, so every one can be drawn. -/
theorem asNan32_of_isNaN {x : Word} (h : isNaN32 x = true) : asNan32 x = x := by
  rw [isNaN32_iff] at h
  have hm := ((binary32.datum_eq_nan_iff _).1 h).2
  rw [asNan32, if_neg (mt (fraction32_eq_zero_iff x).1 hm)]
  exact BitVec.eq_of_toNat_eq (binary32.or_infBits_of_nan h)

/-- A binary64 NaN is its own draw, so every one can be drawn. -/
theorem asNan64_of_isNaN {x : Word64} (h : isNaN64 x = true) : asNan64 x = x := by
  rw [isNaN64_iff] at h
  have hm := ((binary64.datum_eq_nan_iff _).1 h).2
  rw [asNan64, if_neg (mt (fraction64_eq_zero_iff x).1 hm)]
  exact BitVec.eq_of_toNat_eq (binary64.or_infBits_of_nan h)

/-- Settles O41: `asNan32` and `asNan64` give NaNs only, and keep every NaN. -/
theorem nanDrawsAreNans : Obligations.NanDrawsAreNans :=
  ⟨fun d => ⟨asNan32_isNaN _, nan64_isNaN d⟩, fun _ => asNan32_of_isNaN, fun _ => asNan64_of_isNaN⟩

end Sys2Proof.Machine
end

section
/-! PROOFS. Rounding to nearest, ties to even (00_scope.md R16). -/

namespace Sys2Proof.Machine

open Sys2Proof.Claims

/-- The shift of `roundMag`: the exponent at which `num / den` least subnormals has `f.frac + 1` significant bits, or 0. -/
def Format.roundShift (f : Format) (num den : Nat) : Nat := Nat.log2 (num / den) - f.frac

/-- The magnitude bits `roundMag` computes before it looks at overflow and `ftz`. -/
def Format.unboundedMag (f : Format) (num den : Nat) : Nat :=
  f.roundShift num den * 2 ^ f.frac + roundHalfEven num (den * 2 ^ f.roundShift num den)

theorem Format.roundMag_eq (f : Format) (num den : Nat) :
    f.roundMag false num den = if f.infBits ≤ f.unboundedMag num den then f.infBits else f.unboundedMag num den := by
  simp only [Format.roundMag, Bool.false_eq_true, false_and, if_false]
  rfl

theorem Format.roundMag_of_finite {f : Format} {num den : Nat} (h : f.roundMag false num den < f.infBits) :
    f.roundMag false num den = f.unboundedMag num den := by
  rw [f.roundMag_eq] at h ⊢
  split at h
  · exact absurd h (lt_irrefl _)
  · rename_i hlt
    rw [if_neg hlt]

/-- Magnitude bits written as a shift and a significand, which is at least `2 ^ f.frac` unless the shift is 0. The
significand `2 ^ (f.frac + 1)` of a carry is the next exponent's least. -/
theorem unitsOf_shift_add (f : Format) {k t : Nat} (hk : k = 0 ∨ 2 ^ f.frac ≤ t) (ht : t ≤ 2 * 2 ^ f.frac) :
    unitsOf f (k * 2 ^ f.frac + t) = t * 2 ^ k := by
  have hF : 0 < 2 ^ f.frac := by positivity
  by_cases hsub : t < 2 ^ f.frac
  · obtain rfl : k = 0 := hk.resolve_right (not_le.2 hsub)
    simp [unitsOf, hsub]
  · rw [unitsOf, if_neg (by omega)]
    rcases ht.lt_or_eq with hlt | rfl
    · obtain ⟨m, rfl⟩ := Nat.exists_eq_add_of_le (not_lt.1 hsub)
      have hm : m < 2 ^ f.frac := by omega
      rw [show k * 2 ^ f.frac + (2 ^ f.frac + m) = m + 2 ^ f.frac * (k + 1) by ring, Nat.add_mul_mod_self_left,
        Nat.add_mul_div_left _ _ hF, Nat.mod_eq_of_lt hm, Nat.div_eq_of_lt hm]
      simp
    · rw [show k * 2 ^ f.frac + 2 * 2 ^ f.frac = 2 ^ f.frac * (k + 2) by ring, Nat.mul_mod_right,
        Nat.mul_div_cancel_left _ hF, show k + 2 - 1 = k + 1 by omega]
      ring

/-- All magnitude bits have a shift and a significand. -/
theorem exists_shift_add (f : Format) (mag : Nat) :
    ∃ k t, mag = k * 2 ^ f.frac + t ∧ (k = 0 ∨ 2 ^ f.frac ≤ t) ∧ t < 2 * 2 ^ f.frac := by
  have hF : 0 < 2 ^ f.frac := by positivity
  have hm := Nat.mod_lt mag hF
  have hd := Nat.div_add_mod' mag (2 ^ f.frac)
  cases hq : mag / 2 ^ f.frac with
  | zero =>
    rw [hq] at hd
    exact ⟨0, mag % 2 ^ f.frac, hd.symm, .inl rfl, by omega⟩
  | succ k =>
    rw [hq, Nat.succ_mul] at hd
    exact ⟨k, 2 ^ f.frac + mag % 2 ^ f.frac, by omega, .inr (by omega), by omega⟩

/-- Greater magnitude bits are a greater value. -/
theorem unitsOf_strictMono (f : Format) : StrictMono (unitsOf f) :=
  strictMono_nat_of_lt_succ fun mag => by
    obtain ⟨k, t, rfl, hk, ht⟩ := exists_shift_add f mag
    rw [Nat.add_assoc, unitsOf_shift_add f hk ht.le, unitsOf_shift_add f (hk.imp_right fun h => h.trans t.le_succ) ht]
    exact Nat.mul_lt_mul_of_pos_right t.lt_succ_self (by positivity)

/-- The integer part of the significand that `roundMag` rounds has `f.frac + 1` bits, or fewer at shift 0. -/
theorem Format.significand_bounds (f : Format) (num den : Nat) :
    (f.roundShift num den = 0 ∨ 2 ^ f.frac ≤ num / (den * 2 ^ f.roundShift num den)) ∧
      num / (den * 2 ^ f.roundShift num den) < 2 * 2 ^ f.frac := by
  rw [← Nat.div_div_eq_div_mul, Format.roundShift]
  set q := num / den
  have hlt : q < 2 ^ (q.log2 + 1) := Nat.lt_log2_self
  refine ⟨?_, ?_⟩
  · by_cases hs : q.log2 - f.frac = 0
    · exact .inl hs
    · have hq : q ≠ 0 := by
        intro h
        simp [h] at hs
      refine .inr ((Nat.le_div_iff_mul_le (by positivity)).2 ?_)
      rw [← pow_add, show f.frac + (q.log2 - f.frac) = q.log2 by omega]
      exact Nat.log2_self_le hq
  · refine (Nat.div_lt_iff_lt_mul (by positivity)).2 (hlt.trans_le ?_)
    rw [← pow_succ', ← pow_add]
    exact Nat.pow_le_pow_right two_pos (by omega)

/-- `roundHalfEven` rounds down below the middle, up above it, and to the even integer at it. -/
theorem roundHalfEven_cases (num : Nat) {d : Nat} :
    (roundHalfEven num d = num / d ∧ 2 * (num % d) ≤ d ∧ (2 * (num % d) = d → num / d % 2 = 0)) ∨
      (roundHalfEven num d = num / d + 1 ∧ d ≤ 2 * (num % d) ∧ (2 * (num % d) = d → (num / d + 1) % 2 = 0)) := by
  simp only [roundHalfEven]
  split <;> omega

/-- Of all magnitudes, finite or beyond, `unboundedMag` lies nearest to `num / den`, and it is even if another lies as
near. With `a` the integer part of the significand, `unboundedMag` is the magnitude of `a` or the next; a magnitude below
`a`'s has a lesser value, one above the next has a greater. -/
theorem Format.unboundedMag_nearest (f : Format) (hf : f.frac ≠ 0) {num den : Nat} (hden : 0 < den) (mag : Nat) :
    distance f num den (f.unboundedMag num den) ≤ distance f num den mag ∧
      (mag ≠ f.unboundedMag num den → distance f num den (f.unboundedMag num den) = distance f num den mag →
        f.unboundedMag num den % 2 = 0) := by
  obtain ⟨hlow, hhigh⟩ := f.significand_bounds num den
  have hround := roundHalfEven_cases num (d := den * 2 ^ f.roundShift num den)
  have hnum := Nat.div_add_mod' num (den * 2 ^ f.roundShift num den)
  have hrem := Nat.mod_lt num (show 0 < den * 2 ^ f.roundShift num den by positivity)
  unfold Format.unboundedMag
  generalize f.roundShift num den = k at *
  generalize num / (den * 2 ^ k) = a at *
  generalize num % (den * 2 ^ k) = r at *
  have heven : k * 2 ^ f.frac % 2 = 0 := by
    obtain ⟨n, hn⟩ := Nat.exists_eq_succ_of_ne_zero hf
    rw [hn, pow_succ, ← Nat.mul_assoc, Nat.mul_mod_left]
  have hmono : StrictMono fun m => unitsOf f m * den := fun m n h =>
    Nat.mul_lt_mul_of_pos_right (unitsOf_strictMono f h) hden
  have hbase : unitsOf f (k * 2 ^ f.frac + a) * den = a * (den * 2 ^ k) := by
    rw [unitsOf_shift_add f hlow hhigh.le]
    ring
  have hnext : unitsOf f (k * 2 ^ f.frac + (a + 1)) * den = a * (den * 2 ^ k) + den * 2 ^ k := by
    rw [unitsOf_shift_add f (hlow.imp_right fun h => h.trans (Nat.le_add_right a 1)) (show a + 1 ≤ _ from hhigh)]
    ring
  have hplace : mag < k * 2 ^ f.frac + a ∧ unitsOf f mag * den < a * (den * 2 ^ k) ∨
      mag = k * 2 ^ f.frac + a ∧ unitsOf f mag * den = a * (den * 2 ^ k) ∨
      mag = k * 2 ^ f.frac + (a + 1) ∧ unitsOf f mag * den = a * (den * 2 ^ k) + den * 2 ^ k ∨
      k * 2 ^ f.frac + (a + 1) < mag ∧ a * (den * 2 ^ k) + den * 2 ^ k < unitsOf f mag * den := by
    rcases lt_trichotomy mag (k * 2 ^ f.frac + a) with h | h | h
    · exact .inl ⟨h, hbase ▸ hmono h⟩
    · exact .inr (.inl ⟨h, h ▸ hbase⟩)
    · rcases (Nat.succ_le_of_lt h).eq_or_lt' with h | h
      · exact .inr (.inr (.inl ⟨h, h ▸ hnext⟩))
      · exact .inr (.inr (.inr ⟨h, hnext ▸ hmono h⟩))
  rcases hround with ⟨ht, hle, htie⟩ | ⟨ht, hle, htie⟩
  · rw [ht, distance, distance, hbase]
    omega
  · rw [ht, distance, distance, hnext]
    omega

/-- Settles O42: a finite result is the unbounded one, which is nearest of all magnitudes. -/
theorem roundingIsToNearestEven : Obligations.RoundingIsToNearestEven := by
  intro f num den mag hf hden hfin _
  have hfrac : f.frac ≠ 0 := by rcases hf with rfl | rfl <;> decide
  rw [Format.roundMag_of_finite hfin]
  exact f.unboundedMag_nearest hfrac hden mag

end Sys2Proof.Machine
end

section
/-! PROOFS. Widening and narrowing (00_scope.md R16, 41_parameter_store.md R134). -/

namespace Sys2Proof.Machine

open Sys2Proof.Claims

/-- A value that the format has is rounded to itself. -/
theorem Format.roundMag_exact (f : Format) (hf : f.frac ≠ 0) {den mag : Nat} (hden : 0 < den) (hmag : mag ≤ f.infBits) :
    f.roundMag false (unitsOf f mag * den) den = mag := by
  have hself : distance f (unitsOf f mag * den) den mag = 0 := by simp [distance]
  have hzero := Nat.le_zero.1 (hself ▸ (f.unboundedMag_nearest hf hden (num := unitsOf f mag * den) mag).1)
  have hunits : unitsOf f (f.unboundedMag (unitsOf f mag * den) den) = unitsOf f mag := by
    rw [distance, Int.natAbs_eq_zero, sub_eq_zero, Nat.cast_inj] at hzero
    exact Nat.eq_of_mul_eq_mul_right hden hzero
  rw [f.roundMag_eq, (unitsOf_strictMono f).injective hunits]
  split <;> omega

/-- Every significand of at most `f.frac + 1` bits, at any shift, is the value of some magnitude bits. -/
theorem exists_unitsOf_eq (f : Format) {t : Nat} (ht : t < 2 * 2 ^ f.frac) (k : Nat) : ∃ mag, unitsOf f mag = t * 2 ^ k := by
  induction k generalizing t with
  | zero => exact ⟨0 * 2 ^ f.frac + t, unitsOf_shift_add f (.inl rfl) ht.le⟩
  | succ k ih =>
    by_cases hs : t < 2 ^ f.frac
    · obtain ⟨mag, h⟩ := ih (t := 2 * t) (by omega)
      exact ⟨mag, by rw [h]; ring⟩
    · exact ⟨(k + 1) * 2 ^ f.frac + t, unitsOf_shift_add f (.inr (not_lt.1 hs)) ht.le⟩

theorem Format.infBits_lt_signBit (f : Format) : f.infBits < f.signBit := by
  rw [Format.infBits, Format.signBit, pow_add]
  exact Nat.mul_lt_mul_of_pos_right (Nat.sub_lt (by positivity) one_pos) (by positivity)

/-- The datum of a sign and magnitude bits up to infinity's. -/
theorem Format.datum_pattern (f : Format) (neg : Bool) {mag : Nat} (h : mag ≤ f.infBits) :
    f.datum (f.pattern neg mag) = if mag = f.infBits then .inf neg else .fin neg (unitsOf f mag) := by
  have hlt : mag < f.signBit := h.trans_lt f.infBits_lt_signBit
  have hmod : f.pattern neg mag % f.signBit = mag := by
    cases neg <;> simp [Format.pattern, Nat.mod_eq_of_lt hlt]
  have hneg : decide (f.signBit ≤ f.pattern neg mag) = neg := by
    cases neg <;> simp [Format.pattern, hlt]
  have hunits : mag / 2 ^ f.frac = 0 ↔ mag < 2 ^ f.frac := Nat.div_eq_zero_iff_lt (by positivity)
  simp only [Format.datum, hmod, hneg, not_lt.2 h, if_false, hunits, unitsOf]
  split_ifs with h1 h2
  · rfl
  · rw [Nat.mod_eq_of_lt h2]
  · rfl

/-- Bits that are no NaN are a sign and magnitude bits up to infinity's. -/
theorem Format.exists_pattern (f : Format) {bits : Nat} (hbits : bits < 2 * f.signBit) (h : f.datum bits ≠ .nan) :
    ∃ neg mag, mag ≤ f.infBits ∧ bits = f.pattern neg mag := by
  refine ⟨decide (f.signBit ≤ bits), bits % f.signBit, ?_, ?_⟩
  · exact not_lt.1 (mt (f.datum_eq_nan_iff_lt bits).2 h)
  · by_cases hs : f.signBit ≤ bits
    · simp only [Format.pattern, hs, decide_true, if_true]
      rw [Nat.mod_eq_sub_mod hs, Nat.mod_eq_of_lt (by omega)]
      omega
    · simp [Format.pattern, hs, Nat.mod_eq_of_lt (not_le.1 hs)]

theorem Format.pattern_lt (f : Format) (neg : Bool) {mag : Nat} (h : mag ≤ f.infBits) :
    f.pattern neg mag < 2 * f.signBit := by
  have := h.trans_lt f.infBits_lt_signBit
  cases neg <;> simp only [Format.pattern, Bool.false_eq_true, if_false, if_true] <;> omega

/-- A conversion that can keep the value keeps it. -/
theorem Format.convert_of_sameValue (f g : Format) (hf : f.frac ≠ 0) (neg : Bool) {mag mag' : Nat}
    (hmag : mag < g.infBits) (hmag' : mag' ≤ f.infBits)
    (h : unitsOf g mag * 2 ^ f.unit = unitsOf f mag' * 2 ^ g.unit) :
    f.convert g false (g.datum (g.pattern neg mag)) = some (f.pattern neg mag') := by
  rw [g.datum_pattern neg hmag.le, if_neg hmag.ne, Format.convert, h, f.roundMag_exact hf (by positivity) hmag']

/-- A conversion keeps infinities. -/
theorem Format.convert_infinity (f g : Format) (neg : Bool) :
    f.convert g false (g.datum (g.pattern neg g.infBits)) = some (f.pattern neg f.infBits) := by
  rw [g.datum_pattern neg le_rfl, if_pos rfl, Format.convert]

/-- Every finite binary32 value is a finite binary64 value. -/
theorem exists_binary64_sameValue {mag : Nat} (hmag : mag < binary32.infBits) :
    ∃ mag', mag' < binary64.infBits ∧
      unitsOf binary32 mag * 2 ^ binary64.unit = unitsOf binary64 mag' * 2 ^ binary32.unit := by
  obtain ⟨k, t, rfl, hk, ht⟩ := exists_shift_add binary32 mag
  have hk255 : k < 255 := by
    have : k * 2 ^ 23 + t < 255 * 2 ^ 23 := hmag
    omega
  have hk2046 : k + 925 ≤ 2046 := by omega
  have ht52 : t < 2 ^ binary64.frac := ht.trans (by decide)
  obtain ⟨mag', hmag'⟩ := exists_unitsOf_eq binary64 (t := t) (by omega) (k + 925)
  refine ⟨mag', (unitsOf_strictMono binary64).lt_iff_lt.1 ?_, ?_⟩
  · have hinf : binary64.infBits = 2046 * 2 ^ binary64.frac + 2 ^ binary64.frac := by decide
    rw [hmag', hinf, unitsOf_shift_add binary64 (.inr le_rfl) (by omega)]
    exact Nat.mul_lt_mul_of_lt_of_le ht52 (pow_le_pow_right₀ one_le_two hk2046) (pow_pos two_pos _)
  · have hunit : binary64.unit = 925 + binary32.unit := rfl
    rw [hmag', unitsOf_shift_add binary32 hk ht.le, hunit, Nat.mul_assoc, Nat.mul_assoc, ← pow_add, ← pow_add,
      Nat.add_assoc]

/-- The conversions keep a pattern's value both ways, for the finite ones and for infinities. -/
theorem exists_wide_pattern (neg : Bool) {mag : Nat} (h : mag ≤ binary32.infBits) :
    ∃ mag', mag' ≤ binary64.infBits ∧
      binary64.convert binary32 false (binary32.datum (binary32.pattern neg mag)) = some (binary64.pattern neg mag') ∧
      binary32.convert binary64 false (binary64.datum (binary64.pattern neg mag')) = some (binary32.pattern neg mag) := by
  rcases h.lt_or_eq with hlt | rfl
  · obtain ⟨mag', hlt', hval⟩ := exists_binary64_sameValue hlt
    exact ⟨mag', hlt'.le, Format.convert_of_sameValue _ _ (by decide) neg hlt hlt'.le hval,
      Format.convert_of_sameValue _ _ (by decide) neg hlt' hlt.le hval.symm⟩
  · exact ⟨binary64.infBits, le_rfl, Format.convert_infinity _ _ neg, Format.convert_infinity _ _ neg⟩

/-- Settles O39: a binary32 pattern that is no NaN has a binary64 pattern of the same value, and each converts to the
other. -/
theorem wideningIsExact : Obligations.WideningIsExact := by
  intro d d' v hv
  have hdatum : binary32.datum v.toNat ≠ .nan := mt isNaN32_iff.2 (by simp [hv])
  obtain ⟨neg, mag, hmag, hbits⟩ := binary32.exists_pattern (show v.toNat < 2 * binary32.signBit from v.isLt) hdatum
  obtain ⟨mag', hmag', hwiden, hnarrow⟩ := exists_wide_pattern neg hmag
  have hwide : (BitVec.ofNat 64 (binary64.pattern neg mag')).toNat = binary64.pattern neg mag' :=
    Nat.mod_eq_of_lt (binary64.pattern_lt neg hmag')
  rw [narrow, widen, datum32, hbits, hwiden, result64, datum64, hwide, hnarrow, result32, ← hbits]
  simp

end Sys2Proof.Machine
end

section
/-! PROOFS. Everything a command and an event can leave, as one list of cases: what every step keeps is proved of each. -/

namespace Sys2Proof.Machine

/-- The states in which a command started in `s` can end, with what its checks then say of `s`. -/
inductive CommandEffect (s : State) : State → Prop
  /-- A check or a register read failed (60_exceptions.md R260). -/
  | fault (e : TrapCode) (v : Word) : CommandEffect s (s.enterFault s.port e v)
  /-- The command changed nothing but the completion count: DEINIT, EVENT, and SETP where no register is. -/
  | completes : CommandEffect s (s.complete s.port)
  /-- INIT, on port R, with a capacity that fits (45_interface.md R230). -/
  | init (a : Word) (sr : Word64) (cap : Nat) (hport : s.port = .r) (hcap : 2 ≤ cap)
      (hfit : a.toNat * cap ≤ s.cfg.dlmWords) :
      CommandEffect s (((s.allocate a sr cap).drawn 1).complete s.port)
  /-- SETBYP. -/
  | setbyp (b : Bool) : CommandEffect s ((s.drawBypassView.issueWrite ⟨.bypass, bitWord b⟩).complete s.port)
  /-- SETP of a register that one event writes. -/
  | write (w : RegWrite) : CommandEffect s ((s.issueWrite w).complete s.port)
  /-- SETP of a binary64 register. -/
  | writeWide (r : Wide) (x : Word64) : CommandEffect s ((s.drawn 2).writeWide r x)
  /-- A response: GETBYP, GETP and GETMAXF, after `n` arithmetic operations. -/
  | answer (n : Nat) (v : Word) : CommandEffect s (((s.drawn n).respond s.port v).complete s.port)
  /-- SETMAXF. -/
  | setmaxf (count : Word) : CommandEffect s ({ s with maxf := ⟨count, true⟩ }.complete s.port)
  /-- SETCTX. -/
  | setctx (handle : Word64) : CommandEffect s ({ s with ctx := handle }.complete s.port)
  /-- PROCESS of a bypassed block (44_render.md R192). -/
  | bypassed (a f : Word) :
      CommandEffect s
        (({ s with pnch := a, pf := f, outBuf := copyBlock s.inBuf a.toNat f.toNat s.outBuf }).goto .idle)
  /-- PROCESS, on port R, of a block with base delay `d` (44_render.md R193). -/
  | block (a f : Word) (d : Nat) (hport : s.port = .r) (hinit : s.initd = true) (hch : a.toNat ≤ s.nch.toNat)
      (hd : baseDelay s = .ok d) :
      CommandEffect s (({ s with pnch := a, pf := f, baseD := d }).goto (if 0 < f.toNat then .frame 0 else .idle))

/-- A command that port C does not accept gets past its first check on port R only (30_encoding.md R101). -/
theorem port_eq_r_of_renderOnly_ok {s : State} {o : Op} {u : Unit} (ho : o.acceptedOn .c = false)
    (h : renderOnly s o = .ok u) : s.port = .r := by
  have hacc : o.acceptedOn s.port = true := require_ok h
  cases hp : s.port with
  | r => rfl
  | c => simp [hp, ho] at hacc

/-- Fault entry is an effect, so a command's ordinary ends are all that is left to look at. -/
theorem CommandEffect.of_settle {s t : State} {body : Except Raise State} (h : settle s.port s body = .next t)
    (hok : body = .ok t → CommandEffect s t) : CommandEffect s t := by
  rcases settle_next h with hb | ⟨e, v, -, rfl⟩
  · exact hok hb
  · exact .fault e v

theorem execInit_effect {a b : Word} {sr : Word64} {s t : State} (h : execInit a b sr s = .next t) :
    CommandEffect s t := .of_settle h fun hb => by
  obtain ⟨_, hport, hb⟩ := bind_ok hb
  obtain ⟨cap, hc, hb⟩ := bind_ok hb
  cases hb
  obtain ⟨-, hcap, -, hfit⟩ := initCapacity_ok hc
  exact .init a sr cap (port_eq_r_of_renderOnly_ok rfl hport) hcap hfit

theorem execGetbyp_effect {s t : State} (h : execGetbyp s = .next t) : CommandEffect s t := .of_settle h fun hb => by
  obtain ⟨b, -, hb⟩ := bind_ok hb
  cases hb
  exact .answer 0 (bitWord b)

theorem execSetp_effect {pa : BitVec 4} {v : Word} {s t : State} (h : execSetp pa v s = .next t) :
    CommandEffect s t := by
  unfold execSetp at h
  split at h <;> cases h
  case h_1 r _ => exact .writeWide r _
  case h_5 => exact .completes
  all_goals exact .write _

theorem execGetp_effect {pa : BitVec 4} {s t : State} (h : execGetp pa s = .next t) :
    CommandEffect s t := .of_settle h fun hb => by
  obtain ⟨v, -, hb⟩ := bind_ok hb
  cases hb
  exact .answer 2 v

theorem execGetmaxf_effect {s t : State} (h : execGetmaxf s = .next t) :
    CommandEffect s t := .of_settle h fun hb => by
  obtain ⟨_, -, hb⟩ := bind_ok hb
  obtain ⟨m, -, hb⟩ := bind_ok hb
  cases hb
  exact .answer 0 m

theorem execProcess_effect {a b f : Word} {time : Word64} {s t : State} (h : execProcess a b f time s = .next t) :
    CommandEffect s t := .of_settle h fun hb => by
  obtain ⟨_, hport, hb⟩ := bind_ok hb
  obtain ⟨hinit, -, hch, -, -, -, ⟨-, rfl⟩ | ⟨-, d, hd, rfl⟩⟩ := blockBegin_ok hb
  · exact .bypassed a f
  · exact .block a f d (port_eq_r_of_renderOnly_ok rfl hport) hinit hch hd

/-- A command whose only check is its port ends in the one state `u`. -/
theorem CommandEffect.of_renderOnly {o : Op} {s t u : State} (hu : CommandEffect s u)
    (h : settle s.port s (renderOnly s o >>= fun _ => .ok u) = .next t) : CommandEffect s t := .of_settle h fun hb => by
  obtain ⟨_, -, hb⟩ := bind_ok hb
  cases hb
  exact hu

/-- Every command that answers a next state ends in one of these states. -/
theorem exec_effect {i : Instr} {s t : State} (h : exec i s = .next t) : CommandEffect s t := by
  cases i with
  | init a b sr => exact execInit_effect h
  | deinit => exact .of_renderOnly .completes h
  | setbyp b =>
    cases h
    exact .setbyp b
  | getbyp => exact execGetbyp_effect h
  | setp pa v => exact execSetp_effect h
  | getp pa => exact execGetp_effect h
  | setmaxf n => exact .of_renderOnly (.setmaxf n) h
  | getmaxf => exact execGetmaxf_effect h
  | process a b f time => exact execProcess_effect (time := time) h
  | event time tag p0 p1 => exact .of_renderOnly .completes h
  | setctx x => exact .of_renderOnly (.setctx x) h

/-- The states in which an event of an agent made in `s` can end, with what the choice of the event says of `s`
(20_memory.md R82, R84). -/
inductive EventEffect (s : State) : State → Prop
  /-- Nothing is left to do, or the words of a command are still to arrive. -/
  | none : EventEffect s s
  /-- A micro-step enters a fault. -/
  | microFault (e : TrapCode) (v : Word) : EventEffect s (s.enterFault .r e v)
  /-- FRAME_BEGIN. -/
  | frame (i : Nat) (t : State) (hseq : s.seq = .frame i) (h : frameBegin i s = .ok t) : EventEffect s t
  /-- CHSTEP. -/
  | chan (i ch : Nat) (t : State) (hseq : s.seq = .chan i ch) (h : chStep i ch s = .ok t) : EventEffect s t
  /-- The second half-write of a SETP. -/
  | half (p : Port) (w : RegWrite) : EventEffect s (s.finishHalf p w)
  /-- An illegal command word. -/
  | illegal (p : Port) (w : Word) (rest : List Word) : EventEffect s ((s.setQueue p rest).enterFault p .illegalCmd w)
  /-- A command, which port R starts only when its SETP and its PROCESS are done. -/
  | command (p : Port) (rest : List Word) (t : State) (hready : p = .r → s.halfR = Option.none ∧ s.seq = .idle)
      (h : CommandEffect (s.begin p rest) t) : EventEffect s t
  /-- A pending write becomes visible. -/
  | visible : EventEffect s s.applyPending

/-- Fault entry is an effect, so a micro-step's ordinary ends are all that is left to look at. -/
theorem EventEffect.of_settle {s t : State} {body : Except Raise State} (h : settle .r s body = .next t)
    (hok : body = .ok t → EventEffect s t) : EventEffect s t := by
  rcases settle_next h with hb | ⟨e, v, -, rfl⟩
  · exact hok hb
  · exact .microFault e v

theorem microStep_effect {s t : State} (h : microStep s = .next t) : EventEffect s t := by
  unfold microStep at h
  split at h
  case h_1 =>
    cases h
    exact .none
  case h_2 i hseq => exact .of_settle h (.frame i t hseq)
  case h_3 i ch hseq => exact .of_settle h (.chan i ch t hseq)

theorem commandStep_effect {p : Port} {s t : State} (hready : p = .r → s.halfR = none ∧ s.seq = .idle)
    (h : commandStep p s = .next t) : EventEffect s t := by
  rcases commandStep_next h with rfl | ⟨w, rest, -, rfl⟩ | ⟨i, rest, -, hi⟩
  · exact .none
  · exact .illegal p w rest
  · exact .command p rest t hready (exec_effect hi)

/-- Every event of an agent ends in one of these states. -/
theorem eventStep_effect {u : Turn} {s t : State} (h : eventStep (s.eventOf u) s = .next t) : EventEffect s t := by
  rcases eventOf_cases s u with ⟨w, he, -⟩ | ⟨w, he, -⟩ | ⟨he, -, -⟩ | ⟨he, hready⟩ | ⟨he, -⟩ | he <;> rw [he] at h
  · cases h
    exact .half .r w
  · cases h
    exact .half .c w
  · exact microStep_effect h
  · exact commandStep_effect (fun _ => hready) h
  · exact commandStep_effect (p := .c) (fun hp => nomatch hp) h
  · cases h
    exact .visible

/-- Every step is one event, made in the state it started from or in that state with the choice of the agent used. -/
theorem step_effect {s t : State} (h : step s = .next t) :
    ∃ s', (s' = s ∨ s' = s.choiceUsed) ∧ EventEffect s' t := by
  obtain ⟨-, ⟨-, rfl⟩ | ⟨u, s', -, hs', he⟩⟩ := step_next h
  · exact ⟨t, .inl rfl, .none⟩
  · exact ⟨s', hs', eventStep_effect he⟩

end Sys2Proof.Machine
end

section
/-! PROOFS. The invariant of memories, cursors, sequencer and base delay (`State.Inv`): reset meets it, and every step
keeps it. -/

namespace Sys2Proof.Machine

/-- Settles O13: at reset there is no memory word, no delay line, no block and no pending write. -/
theorem invariantHoldsAtReset : Obligations.InvariantHoldsAtReset := fun c hc =>
  { sizes := hc
    dlmForm := ⟨.nil, by simp [State.resetWith]⟩
    inForm := ⟨.nil, by simp [State.resetWith]⟩
    outForm := ⟨.nil, by simp [State.resetWith]⟩
    dlmRange := by simp [State.resetWith]
    linesFit := by simp [State.resetWith]
    cursorCount := rfl
    cursorRange := by simp [State.resetWith]
    capacity := fun h => nomatch h
    noLines := fun _ => rfl
    seqRange := rfl
    blockFits := fun h => absurd rfl h
    oneCommand := fun _ => rfl
    halfR := fun _ h => nomatch h
    halfC := fun _ h => nomatch h
    strongOrder := fun _ => rfl
    faultCodes := Nat.zero_le 9 }

/-! ### Registers, ports and faults -/

theorem TrapCode.number_le (e : TrapCode) : e.number.toNat ≤ 9 := by cases e <;> decide

theorem enterFault_inv {s : State} (h : s.Inv) (p : Port) (e : TrapCode) (v : Word) : (s.enterFault p e v).Inv :=
  { h with faultCodes := e.number_le }

theorem drawn_inv {s : State} (h : s.Inv) (n : Nat) : (s.drawn n).Inv := { h with }

theorem complete_inv {s : State} (h : s.Inv) (p : Port) : (s.complete p).Inv := { h with }

theorem issueWrite_inv {s : State} (h : s.Inv) (w : RegWrite) : (s.issueWrite w).Inv := by
  unfold State.issueWrite
  split
  · rename_i hw
    exact { h with strongOrder := fun hf => absurd hf (by simp [hw.2]) }
  · exact { h with }

theorem drawBypassView_inv {s : State} (h : s.Inv) : s.drawBypassView.Inv := by
  rcases s.drawBypassView_cases with ⟨-, hs⟩ | ⟨-, -, hs⟩ <;> rw [hs]
  · exact h
  · exact { h with }

theorem halvesOf_isHalf (r : Wide) (x : Word64) (n : Nat) : (halvesOf r x n).2.slot.isHalf = true := by
  unfold halvesOf
  split <;> rfl

/-- Port R may have a half-write pending only when no block runs (20_memory.md R84). -/
theorem setHalf_inv {s : State} (h : s.Inv) {p : Port} {w : RegWrite} (hw : w.slot.isHalf = true)
    (hidle : p = .r → s.seq = .idle) : (s.setHalf p (some w)).Inv := by
  have his : ∀ w', some w = some w' → w'.slot.isHalf = true := by
    rintro _ ⟨⟩
    exact hw
  cases p with
  | r => exact { h with oneCommand := fun hs => absurd (hidle rfl) hs, halfR := his }
  | c => exact { h with halfC := his }

theorem writeWide_inv {s : State} (h : s.Inv) (hidle : s.port = .r → s.seq = .idle) (r : Wide) (x : Word64) :
    (s.writeWide r x).Inv := by
  unfold State.writeWide
  split
  · exact complete_inv (issueWrite_inv (issueWrite_inv h _) _) _
  · exact setHalf_inv (s := s.choiceUsed.applyWrite _) { h with } (halvesOf_isHalf r x _) hidle

theorem finishHalf_inv {s : State} (h : s.Inv) (p : Port) (w : RegWrite) : (s.finishHalf p w).Inv := by
  cases p with
  | r => exact { h with oneCommand := fun _ => rfl, halfR := fun _ hw => nomatch hw }
  | c => exact { h with halfC := fun _ hw => nomatch hw }

theorem applyPending_inv {s : State} (h : s.Inv) : s.applyPending.Inv := by
  rcases applyPending_cases s with hs | ⟨u, w, x, hu, -, -, -, hs⟩ <;> rw [hs]
  · exact h
  · rcases hu with rfl | rfl
    all_goals exact { h with strongOrder := fun hf => by simp [h.strongOrder hf] }

/-! ### INIT and PROCESS -/

theorem allocate_inv {s : State} (h : s.Inv) (hidle : s.seq = .idle) {a : Word} {cap : Nat} (hcap : 2 ≤ cap)
    (hfit : a.toNat * cap ≤ s.cfg.dlmWords) (sr : Word64) : (s.allocate a sr cap).Inv :=
  { h with
    dlmForm := Memory.zeroBelow_wf _ _ h.dlmForm
    dlmRange := fun c hc => h.dlmRange c (List.mem_filter.1 hc).1
    linesFit := hfit
    cursorCount := List.length_replicate
    cursorRange := fun c hc => by
      rw [List.eq_of_mem_replicate hc]
      exact Nat.lt_of_lt_of_le two_pos hcap
    capacity := fun _ => hcap
    noLines := fun hi => nomatch hi
    blockFits := fun hs => absurd hidle hs }

theorem bypassed_inv {s : State} (h : s.Inv) (a f : Word) :
    (({ s with pnch := a, pf := f, outBuf := copyBlock s.inBuf a.toNat f.toNat s.outBuf }).goto .idle).Inv :=
  { h with
    outForm := copyBlock_wf _ _ _ _ h.outForm
    seqRange := rfl
    blockFits := fun hs => absurd rfl hs
    oneCommand := fun hs => absurd rfl hs }

theorem block_inv {s : State} (h : s.Inv) (hhalf : s.halfR = none) (hinit : s.initd = true) {a : Word}
    (hch : a.toNat ≤ s.nch.toNat) {d : Nat} (hd : baseDelay s = .ok d) (f : Word) :
    (({ s with pnch := a, pf := f, baseD := d }).goto (if 0 < f.toNat then .frame 0 else .idle)).Inv :=
  { h with
    seqRange := by
      show Seq.inBlock (if 0 < f.toNat then .frame 0 else .idle) a.toNat f.toNat = true
      split
      · exact decide_eq_true ‹_›
      · rfl
    blockFits := fun _ => ⟨hinit, hch, baseDelay_bounds (h.capacity hinit) hd⟩
    oneCommand := fun _ => hhalf }

/-- A command keeps the invariant where `step` starts one: on port R, only when no SETP and no PROCESS is in progress. -/
theorem CommandEffect.inv {s t : State} (he : CommandEffect s t) (h : s.Inv)
    (hready : s.port = .r → s.halfR = none ∧ s.seq = .idle) : t.Inv := by
  cases he with
  | fault e v => exact enterFault_inv h _ e v
  | completes => exact complete_inv h _
  | init a sr cap hport hcap hfit => exact complete_inv (drawn_inv (allocate_inv h (hready hport).2 hcap hfit sr) 1) _
  | setbyp b => exact complete_inv (issueWrite_inv (drawBypassView_inv h) _) _
  | write w => exact complete_inv (issueWrite_inv h w) _
  | writeWide r x => exact writeWide_inv (drawn_inv h 2) (fun hp => (hready hp).2) r x
  | answer n v => exact { h with }
  | setmaxf n => exact { h with }
  | setctx x => exact { h with }
  | bypassed a f => exact bypassed_inv h a f
  | block a f d hport hinit hch hd => exact block_inv h (hready hport).1 hinit hch hd f

/-! ### The micro-steps of a block -/

/-- Inside a block, the sequencer may move to any place of the block, and out of it. -/
theorem goto_inv {s : State} (h : s.Inv) (hs : s.seq ≠ .idle) {q : Seq}
    (hq : q.inBlock s.pnch.toNat s.pf.toNat = true) : (s.goto q).Inv :=
  { h with seqRange := hq, blockFits := fun _ => h.blockFits hs, oneCommand := fun _ => h.oneCommand hs }

theorem afterFrame_inBlock (s : State) (i : Nat) : (s.afterFrame i).inBlock s.pnch.toNat s.pf.toNat = true := by
  unfold State.afterFrame
  split
  · exact decide_eq_true ‹_›
  · rfl

/-- A frame goes on with its first channel, or is done when the block has none (44_render.md R194). -/
theorem firstChannel_inBlock {s : State} {i : Nat} (hi : i < s.pf.toNat) :
    (if 0 < s.pnch.toNat then Seq.chan i 0 else s.afterFrame i).inBlock s.pnch.toNat s.pf.toNat = true := by
  split
  · simp [Seq.inBlock, *]
  · exact afterFrame_inBlock s i

theorem afterChannel_inBlock {s : State} {i : Nat} (hi : i < s.pf.toNat) (ch : Nat) :
    (s.afterChannel i ch).inBlock s.pnch.toNat s.pf.toNat = true := by
  unfold State.afterChannel
  split
  · simp [Seq.inBlock, *]
  · exact afterFrame_inBlock s i

theorem frameBegin_inv {i : Nat} {s t : State} (h : s.Inv) (hseq : s.seq = .frame i) (hb : frameBegin i s = .ok t) :
    t.Inv := by
  obtain ⟨-, q, p, n, rfl, -, ht⟩ := frameBegin_ok hb
  have hi : i < s.pf.toNat := by simpa [hseq, Seq.inBlock] using h.seqRange
  rw [ht]
  exact goto_inv (s := { s with active := _, phase := p, gl := t.gl, gr := t.gr, draws := n }) { h with }
    (by simp [hseq]) (firstChannel_inBlock hi)

/-- An advanced cursor stays in the line, for its new value is a remainder by `CAP` (42_delay_line.md R153). -/
theorem dlAdvance_inv {s : State} (h : s.Inv) (hcap : 0 < s.cap) (ch : Nat) : (dlAdvance s ch).Inv :=
  { h with
    cursorCount := List.length_set.trans h.cursorCount
    cursorRange := fun c hc => by
      rcases List.mem_or_eq_of_mem_set hc with hc | rfl
      · exact h.cursorRange c hc
      · exact Nat.mod_lt _ hcap }

/-- Words written into `DLM`, below `DLM_WORDS`, and into `OUT`. -/
theorem writeSamples_inv {s : State} (h : s.Inv) {a : Nat} (ha : a < s.cfg.dlmWords) (v : Word) (b : Nat) (x : Word) :
    { s with dlm := s.dlm.write a v, outBuf := s.outBuf.write b x }.Inv :=
  { h with
    dlmForm := Memory.write_wf _ _ _ h.dlmForm
    outForm := Memory.write_wf _ _ _ h.outForm
    dlmRange := fun c hc => by
      rcases Memory.mem_write hc with ⟨rfl, -⟩ | hc
      · exact ha
      · exact h.dlmRange c hc }

theorem chStep_inv {i ch : Nat} {s t : State} (h : s.Inv) (hseq : s.seq = .chan i ch) (hb : chStep i ch s = .ok t) :
    t.Inv := by
  obtain ⟨-, hidx, wv, out, n, rfl⟩ := chStep_ok hb
  have hne : s.seq ≠ .idle := by simp [hseq]
  obtain ⟨-, -, hlo, hhi⟩ := h.blockFits hne
  have hi : i < s.pf.toNat := by
    have := h.seqRange
    simp only [hseq, Seq.inBlock, Bool.and_eq_true, decide_eq_true_eq] at this
    exact this.1
  have hw := dlAdvance_inv (writeSamples_inv h hidx wv (sampleIndex ch i) out) (Nat.zero_lt_of_lt hhi) ch
  exact goto_inv (drawn_inv hw n) hne (afterChannel_inBlock hi ch)

theorem EventEffect.inv {s t : State} (he : EventEffect s t) (h : s.Inv) : t.Inv := by
  cases he with
  | none => exact h
  | microFault e v => exact enterFault_inv h .r e v
  | frame i _ hseq hb => exact frameBegin_inv h hseq hb
  | chan i ch _ hseq hb => exact chStep_inv h hseq hb
  | half p w => exact finishHalf_inv h p w
  | illegal p w rest => exact enterFault_inv (s := s.setQueue p rest) { h with } p .illegalCmd w
  | command p rest _ hready hc => exact hc.inv { h with } hready
  | visible => exact applyPending_inv h

/-- Settles O14: the choice of the agent touches nothing the invariant speaks of, and every event keeps it. -/
theorem everyStepKeepsInvariant : Obligations.EveryStepKeepsInvariant := by
  intro s t h hstep
  obtain ⟨s', rfl | rfl, he⟩ := step_effect hstep
  · exact he.inv h
  · exact he.inv { h with }

end Sys2Proof.Machine
end

section
/-! PROOFS. No step clears a written mark (10_state.md R46). -/

namespace Sys2Proof.Machine

/-- Every register written in `s` is written in `t`. -/
def KeepsMarks (s t : State) : Prop :=
  (∀ r : Wide, ((s.wide r).loWritten = true → (t.wide r).loWritten = true) ∧
    ((s.wide r).hiWritten = true → (t.wide r).hiWritten = true)) ∧
  (s.zeno.written = true → t.zeno.written = true) ∧ (s.pingpong.written = true → t.pingpong.written = true) ∧
  (s.freq.written = true → t.freq.written = true) ∧ (s.bypass.written = true → t.bypass.written = true) ∧
  (s.maxf.written = true → t.maxf.written = true)

theorem KeepsMarks.refl (s : State) : KeepsMarks s s := ⟨fun _ => ⟨id, id⟩, id, id, id, id, id⟩

theorem KeepsMarks.trans {s t u : State} (h : KeepsMarks s t) (h' : KeepsMarks t u) : KeepsMarks s u := by
  obtain ⟨hw, hz, hp, hf, hb, hm⟩ := h
  obtain ⟨hw', hz', hp', hf', hb', hm'⟩ := h'
  exact ⟨fun r => ⟨(hw' r).1 ∘ (hw r).1, (hw' r).2 ∘ (hw r).2⟩, hz' ∘ hz, hp' ∘ hp, hf' ∘ hf, hb' ∘ hb, hm' ∘ hm⟩

/-- A write event sets marks only. -/
theorem applyWrite_keepsMarks (s : State) (w : RegWrite) : KeepsMarks s (s.applyWrite w) := by
  refine ⟨fun r => ?_, Flag.after_keeps_mark _ _ w, Flag.after_keeps_mark _ _ w, Reg32.after_keeps_mark _ _ w,
    Flag.after_keeps_mark _ _ w, id⟩
  rw [State.wide_applyWrite]
  exact Reg64.after_keeps_marks _ r w

theorem issueWrite_keepsMarks (s : State) (w : RegWrite) : KeepsMarks s (s.issueWrite w) := by
  unfold State.issueWrite
  split
  · exact .refl s
  · exact applyWrite_keepsMarks s w

theorem drawBypassView_keepsMarks (s : State) : KeepsMarks s s.drawBypassView := by
  rcases s.drawBypassView_cases with ⟨-, hs⟩ | ⟨-, -, hs⟩ <;> rw [hs] <;> exact .refl s

theorem writeWide_keepsMarks (s : State) (r : Wide) (x : Word64) : KeepsMarks s (s.writeWide r x) := by
  unfold State.writeWide
  split
  · exact (issueWrite_keepsMarks s ⟨.lo r, lowWord x⟩).trans (issueWrite_keepsMarks _ ⟨.hi r, highWord x⟩)
  · exact applyWrite_keepsMarks s (halvesOf r x s.choice).1

theorem applyPending_keepsMarks (s : State) : KeepsMarks s s.applyPending := by
  rcases applyPending_cases s with hs | ⟨u, w, x, hu, -, -, -, hs⟩ <;> rw [hs]
  · exact .refl s
  · rcases hu with rfl | rfl <;> exact applyWrite_keepsMarks _ w

theorem CommandEffect.keepsMarks {s t : State} (he : CommandEffect s t) : KeepsMarks s t := by
  cases he with
  | setbyp b => exact (drawBypassView_keepsMarks s).trans (issueWrite_keepsMarks _ ⟨.bypass, bitWord b⟩)
  | write w => exact issueWrite_keepsMarks s w
  | writeWide r x => exact writeWide_keepsMarks (s.drawn 2) r x
  | setmaxf n => exact ⟨fun _ => ⟨id, id⟩, id, id, id, id, fun _ => rfl⟩
  | fault | completes | init | answer | setctx | bypassed | block => exact .refl s

theorem EventEffect.keepsMarks {s t : State} (he : EventEffect s t) : KeepsMarks s t := by
  cases he with
  | frame i _ _ hb =>
    obtain ⟨-, _, _, _, -, -, ht⟩ := frameBegin_ok hb
    rw [ht]
    exact .refl s
  | chan i ch _ _ hb =>
    obtain ⟨-, -, _, _, _, rfl⟩ := chStep_ok hb
    exact .refl s
  | half p w => exact applyWrite_keepsMarks s w
  | command p rest _ _ hc => exact hc.keepsMarks
  | visible => exact applyPending_keepsMarks s
  | none | microFault | illegal => exact .refl s

/-- Settles O18: a write event sets the mark of what it writes, SETMAXF sets `MAXF`'s, and nothing else touches one. -/
theorem writtenMarksNeverClear : Obligations.WrittenMarksNeverClear := by
  intro s t h
  obtain ⟨s', rfl | rfl, he⟩ := step_effect h <;> exact he.keepsMarks

end Sys2Proof.Machine
end

section
/-! PROOFS. Only the FRAME_BEGIN of an active frame changes `PHASE` (10_state.md R52). -/

namespace Sys2Proof.Machine

theorem issueWrite_phase (s : State) (w : RegWrite) : (s.issueWrite w).phase = s.phase := by
  unfold State.issueWrite
  split <;> rfl

theorem drawBypassView_phase (s : State) : s.drawBypassView.phase = s.phase := by
  rcases s.drawBypassView_cases with ⟨-, hs⟩ | ⟨-, -, hs⟩
  · rw [hs]
  · rw [hs]
    rfl

theorem writeWide_phase (s : State) (r : Wide) (x : Word64) : (s.writeWide r x).phase = s.phase := by
  unfold State.writeWide
  split
  · exact (issueWrite_phase _ ⟨.hi r, highWord x⟩).trans (issueWrite_phase s ⟨.lo r, lowWord x⟩)
  · rfl

theorem applyPending_phase (s : State) : s.applyPending.phase = s.phase := by
  rcases applyPending_cases s with hs | ⟨u, w, x, rfl | rfl, -, -, -, hs⟩ <;> rw [hs] <;> rfl

theorem CommandEffect.phase_eq {s t : State} (he : CommandEffect s t) : t.phase = s.phase := by
  cases he with
  | setbyp b => exact (issueWrite_phase _ ⟨.bypass, bitWord b⟩).trans (drawBypassView_phase s)
  | write w => exact issueWrite_phase s w
  | writeWide r x => exact writeWide_phase (s.drawn 2) r x
  | fault | completes | init | answer | setmaxf | setctx | bypassed | block => rfl

theorem pingpongActive_iff (pp : Bool) (pnch : Word) :
    pingpongActive pp pnch = true ↔ pp = true ∧ 2 ≤ pnch.toNat := by
  simp [pingpongActive]

/-- A FRAME_BEGIN that changes `PHASE` found ping-pong active, and latches it (43_oscillator.md R170, R174). -/
theorem frameBegin_phase {i : Nat} {s t : State} (h : frameBegin i s = .ok t) (hp : t.phase ≠ s.phase) :
    pingpongActive s.pingpong.val s.pnch = true ∧ t.active = true := by
  obtain ⟨-, q, p, n, -, hinactive, ht⟩ := frameBegin_ok h
  have hphase : t.phase = p := by rw [ht]; rfl
  have hlatch : t.active = pingpongActive s.pingpong.val s.pnch := by rw [ht]; rfl
  have hact : pingpongActive s.pingpong.val s.pnch = true := by
    by_contra hf
    exact hp (hphase.trans (hinactive (by simpa using hf)))
  exact ⟨hact, hlatch.trans hact⟩

theorem EventEffect.phase_moved {s t : State} (he : EventEffect s t) (hp : t.phase ≠ s.phase) :
    (∃ i, s.seq = .frame i) ∧ t.active = true ∧ s.pingpong.val = true ∧ 2 ≤ s.pnch.toNat := by
  cases he with
  | frame i _ hseq hb =>
    obtain ⟨hact, hlatch⟩ := frameBegin_phase hb hp
    exact ⟨⟨i, hseq⟩, hlatch, (pingpongActive_iff _ _).1 hact⟩
  | chan i ch _ _ hb =>
    obtain ⟨-, -, _, _, _, rfl⟩ := chStep_ok hb
    exact absurd rfl hp
  | command p rest _ _ hc => exact absurd hc.phase_eq hp
  | visible => exact absurd (applyPending_phase s) hp
  | none | microFault | half | illegal => exact absurd rfl hp

/-- Settles O19: every event but the FRAME_BEGIN of an active frame keeps `PHASE`. -/
theorem phaseMovesOnlyInActiveFrames : Obligations.PhaseMovesOnlyInActiveFrames := by
  intro s t h hp
  obtain ⟨s', rfl | rfl, he⟩ := step_effect h
  · exact he.phase_moved hp
  · exact he.phase_moved hp

end Sys2Proof.Machine
end

section
/-! PROOFS. Power-on reset (10_state.md R60). -/

namespace Sys2Proof.Machine

/-- After reset no agent can move, so the block waits (70_reset_and_hazards.md R290). -/
theorem step_resetWith (c : Config) : step (State.resetWith c) = .next (State.resetWith c) := by
  have hpick : (State.resetWith c).pick = none := State.pick_none.2 rfl
  have hfault : (State.resetWith c).faulted = false := rfl
  simp [step, hfault, hpick]

/-- Settles O12: the values stand in the reset state's definition. -/
theorem resetLeavesTheStatedValues : Obligations.ResetLeavesTheStatedValues := by
  intro c
  have hwide : ∀ r : Wide, ((State.resetWith c).wide r).loWritten = false ∧
      ((State.resetWith c).wide r).hiWritten = false := by
    intro r
    cases r <;> exact ⟨rfl, rfl⟩
  exact ⟨State.resetWith c, rfl, rfl, rfl, rfl, rfl, rfl, rfl, rfl, hwide, rfl, rfl, rfl, rfl, rfl, rfl, rfl, rfl, rfl,
    rfl, rfl, rfl, rfl, step_resetWith c⟩

end Sys2Proof.Machine
end

section
/-! PROOFS. What a step is, by the agent that moves, and that every agent that can move may be the one (20_memory.md
R82). -/

namespace Sys2Proof.Machine

/-- A step of a block that is not FAULTED is the event of the agent picked, in the state after the choice. -/
theorem step_of_pick {s s' : State} {u : Turn} (hf : s.faulted = false) (hp : s.pick = some (u, s')) :
    step s = eventStep (s'.eventOf u) s' := by simp [step, hf, hp]

theorem step_of_pick_none {s : State} (hf : s.faulted = false) (hp : s.pick = none) : step s = .next s := by
  simp [step, hf, hp]

theorem commandStep_of_decode {p : Port} {s : State} {i : Instr} {rest : List Word}
    (h : decodeOn p (s.queue p) = .ok (i, rest)) : commandStep p s = exec i (s.begin p rest) := by
  simp only [commandStep, acceptOn_run.2 h]

/-- Settles O6: the step is the picked agent's event, the event is the port's command, and the command is the decoded
one, run in the state `State.begin` gives. -/
theorem stepRunsDecodedCommand : Obligations.StepRunsDecodedCommand := by
  intro s s' u p i rest hf hp he hd
  calc step s = eventStep (.command p) s' := by rw [step_of_pick hf hp, he]
    _ = exec i (s'.begin p rest) := commandStep_of_decode hd

/-! ### The event of each agent (20_memory.md R84) -/

theorem eventOf_render_of_half {s : State} {w : RegWrite} (h : s.halfR = some w) : s.eventOf .render = .half .r w := by
  simp [State.eventOf, h]

theorem eventOf_render_of_block {s : State} (h : s.halfR = none) (hs : s.seq ≠ .idle) : s.eventOf .render = .micro := by
  simp [State.eventOf, h, hs]

theorem eventOf_render_of_idle {s : State} (h : s.halfR = none) (hs : s.seq = .idle) :
    s.eventOf .render = .command .r := by simp [State.eventOf, h, hs]

theorem eventOf_control_of_half {s : State} {w : RegWrite} (h : s.halfC = some w) :
    s.eventOf .control = .half .c w := by simp [State.eventOf, h]

theorem eventOf_control_of_none {s : State} (h : s.halfC = none) : s.eventOf .control = .command .c := by
  simp [State.eventOf, h]

/-- Settles O7: the step is the picked agent's event, and each clause names that agent and what decides its event. -/
theorem stepMakesThePendingEvent : Obligations.StepMakesThePendingEvent := by
  intro s s' u hf hp
  have hstep := step_of_pick hf hp
  refine ⟨?_, ?_, ?_, ?_, ?_, ?_⟩
  · rintro w rfl hw
    rw [hstep, eventOf_render_of_half hw, eventStep]
  · rintro rfl hw hs
    rw [hstep, eventOf_render_of_block hw hs, eventStep]
  · rintro rfl hw hs
    rw [hstep, eventOf_render_of_idle hw hs, eventStep]
  · rintro w rfl hw
    rw [hstep, eventOf_control_of_half hw, eventStep]
  · rintro rfl hw
    rw [hstep, eventOf_control_of_none hw, eventStep]
  · rintro rfl
    exact hstep

/-- Where several agents can move, the prescribed choice `n` picks number `n` of them; where one can, it moves
whatever the choice is. -/
theorem pick_prescribed {s : State} {n : Nat} {u : Turn} (h : s.enabled[n]? = some u) :
    ∃ s', { s with choices := n :: s.choices }.pick = some (u, s') := by
  have hen : { s with choices := n :: s.choices }.enabled = s.enabled := rfl
  obtain ⟨hn, hu⟩ := List.getElem?_eq_some_iff.1 h
  unfold State.pick
  rw [hen]
  cases hl : s.enabled with
  | nil => simp [hl] at h
  | cons v more =>
    cases more with
    | nil =>
      have hv : v = u := by
        have hn0 : n = 0 := by simpa [hl] using hn
        simpa [hl, hn0] using h
      exact ⟨_, by rw [hv]⟩
    | cons x more =>
      rw [hl] at h hn
      refine ⟨_, congrArg (fun y => some (y, _)) ?_⟩
      rw [show State.choice _ = n from rfl, Nat.mod_eq_of_lt hn, List.getD_eq_getElem?_getD, h, Option.getD_some]

/-- Settles O11: the number to prescribe is the agent's place among those that can move. -/
theorem anyEnabledAgentMayMove : Obligations.AnyEnabledAgentMayMove := by
  intro s u hu
  obtain ⟨n, hn⟩ := List.mem_iff_getElem?.1 hu
  exact ⟨n, pick_prescribed hn⟩

end Sys2Proof.Machine
end

section
/-! PROOFS. A step of a block that is not FAULTED goes on: only a DLM index out of range could stop it, and in the
invariant every index is in range (20_memory.md R78). -/

namespace Sys2Proof.Machine

/-- A body that ends ordinarily or in a fault of the spec, and does not stop the model. -/
def GoesOn {α : Type} (x : Except Raise α) : Prop := ∀ f, x ≠ .error (.stop f)

theorem GoesOn.ok {α : Type} (a : α) : GoesOn (.ok a) := fun _ h => nomatch h

theorem GoesOn.trap {α : Type} (e : TrapCode) (v : Word) : GoesOn (.error (.trap e v) : Except Raise α) :=
  fun _ h => nomatch h

theorem GoesOn.bind {α β : Type} {x : Except Raise α} {f : α → Except Raise β} (hx : GoesOn x)
    (hf : ∀ a, GoesOn (f a)) : GoesOn (x >>= f) := by
  cases x with
  | error e =>
    rintro g ⟨⟩
    exact hx g rfl
  | ok a => exact hf a

/-- A command or micro-step whose body goes on answers a next state, by its end or by fault entry. -/
theorem GoesOn.settle_exists_next {p : Port} {s : State} {b : Except Raise State} (h : GoesOn b) :
    ∃ t, settle p s b = .next t := by
  rcases b with (⟨e, v⟩ | f) | t
  · exact ⟨_, settle_trap p s e v⟩
  · exact absurd rfl (h f)
  · exact ⟨t, settle_ok p s t⟩

/-! ### Checks and register reads -/

theorem require_goesOn (b : Bool) (e : TrapCode) (v : Word) : GoesOn (require b e v) := by
  cases b
  · exact .trap e v
  · exact .ok ()

theorem Reg64.read_goesOn (x : Reg64) (id : Word) : GoesOn (x.read id) := by
  unfold Reg64.read
  split
  · exact .ok _
  · exact .trap _ id

theorem Reg32.read_goesOn (x : Reg32) (id : Word) : GoesOn (x.read id) := by
  unfold Reg32.read
  split
  · exact .ok _
  · exact .trap _ id

theorem Flag.read_goesOn (x : Flag) (id : Word) : GoesOn (x.read id) := by
  unfold Flag.read
  split
  · exact .ok _
  · exact .trap _ id

/-! ### The commands -/

theorem initCapacity_goesOn (c : Config) (d : Nat) (a b : Word) (sr : Word64) : GoesOn (initCapacity c d a b sr) :=
  .bind (require_goesOn _ _ _) fun _ => .bind (require_goesOn _ _ _) fun _ => .bind (require_goesOn _ _ _) fun _ =>
    .bind (require_goesOn _ _ _) fun _ => .bind (require_goesOn _ _ _) fun _ => .bind (require_goesOn _ _ _) fun _ =>
      .ok _

theorem getpValue_goesOn (view : State) (d : Nat) (pa : BitVec 4) : GoesOn (getpValue view d pa) := by
  unfold getpValue
  split
  · exact .bind (Reg64.read_goesOn _ _) fun _ => .ok _
  · exact .bind (Flag.read_goesOn _ _) fun _ => .ok _
  · exact .bind (Flag.read_goesOn _ _) fun _ => .ok _
  · exact Reg32.read_goesOn _ _
  · exact .ok _

theorem baseDelay_goesOn (s : State) : GoesOn (baseDelay s) := .bind (Reg64.read_goesOn _ _) fun _ => by
  split
  · exact .trap _ _
  · exact .ok _

theorem blockBegin_goesOn (a b f : Word) (s : State) : GoesOn (blockBegin a b f s) :=
  .bind (require_goesOn _ _ _) fun _ => .bind (require_goesOn _ _ _) fun _ => .bind (require_goesOn _ _ _) fun _ =>
    .bind (Reg32.read_goesOn _ _) fun _ => .bind (require_goesOn _ _ _) fun _ =>
      .bind (Flag.read_goesOn _ _) fun _ => by
        split
        · exact .ok _
        · exact .bind (baseDelay_goesOn s) fun _ => .ok _

theorem execSetp_exists_next (pa : BitVec 4) (v : Word) (s : State) : ∃ t, execSetp pa v s = .next t := by
  unfold execSetp
  split <;> exact ⟨_, rfl⟩

/-- No command reads or writes a delay line, so every command goes on, in every state. -/
theorem exec_exists_next (i : Instr) (s : State) : ∃ t, exec i s = .next t := by
  have port {o : Op} : GoesOn (renderOnly s o) := require_goesOn _ _ _
  cases i with
  | init a b sr => exact (port.bind fun _ => (initCapacity_goesOn _ _ a b sr).bind fun _ => .ok _).settle_exists_next
  | deinit => exact (port.bind fun _ => .ok _).settle_exists_next
  | setbyp b => exact ⟨_, rfl⟩
  | getbyp => exact ((Flag.read_goesOn _ _).bind fun _ => .ok _).settle_exists_next
  | setp pa v => exact execSetp_exists_next pa v s
  | getp pa => exact ((getpValue_goesOn _ _ pa).bind fun _ => .ok _).settle_exists_next
  | setmaxf n => exact (port.bind fun _ => .ok _).settle_exists_next
  | getmaxf => exact (port.bind fun _ => (Reg32.read_goesOn _ _).bind fun _ => .ok _).settle_exists_next
  | process a b f time => exact (port.bind fun _ => blockBegin_goesOn a b f s).settle_exists_next
  | event time tag p0 p1 => exact (port.bind fun _ => .ok _).settle_exists_next
  | setctx x => exact (port.bind fun _ => .ok _).settle_exists_next

theorem commandStep_exists_next (p : Port) (s : State) : ∃ t, commandStep p s = .next t := by
  unfold commandStep
  split
  · exact ⟨_, rfl⟩
  · exact ⟨_, rfl⟩
  · exact exec_exists_next _ _

/-! ### The delay lines (42_delay_line.md R151, R152) -/

/-- Word `j < CAP` of an allocated line lies in `DLM`: the lines do not reach past it (10_state.md R34). -/
theorem State.Inv.lineIndex_lt {s : State} (h : s.Inv) {ch j : Nat} (hch : ch < s.nch.toNat) (hj : j < s.cap) :
    s.lineIndex ch j < s.cfg.dlmWords :=
  calc ch * s.cap + j < ch * s.cap + s.cap := Nat.add_lt_add_left hj _
    _ = (ch + 1) * s.cap := (Nat.succ_mul ch s.cap).symm
    _ ≤ s.nch.toNat * s.cap := Nat.mul_le_mul_right _ hch
    _ ≤ s.cfg.dlmWords := h.linesFit

theorem State.Inv.cursor_lt {s : State} (h : s.Inv) {ch : Nat} (hch : ch < s.nch.toNat) : s.cursor ch < s.cap := by
  have hlen : ch < s.wi.length := h.cursorCount ▸ hch
  rw [State.cursor, List.getD_eq_getElem _ _ hlen]
  exact h.cursorRange _ (List.getElem_mem hlen)

/-- A read of an allocated line at an offset in `[1, CAP]` is in range. -/
theorem State.Inv.dlRead_eq {s : State} (h : s.Inv) {ch off : Nat} (hch : ch < s.nch.toNat) (hlo : 1 ≤ off)
    (hhi : off ≤ s.cap) : dlRead s ch off = .ok (s.dlm.read (s.tapIndex ch off)) := by
  have hidx : s.tapIndex ch off < s.cfg.dlmWords := h.lineIndex_lt hch (Nat.mod_lt _ (by omega))
  rw [dlRead, if_pos ⟨hch, hlo, hhi, hidx⟩]

/-- A write at the cursor of an allocated line is in range. -/
theorem State.Inv.dlWrite_eq {s : State} (h : s.Inv) {ch : Nat} (hch : ch < s.nch.toNat) (v : Word) :
    dlWrite s ch v = .ok { s with dlm := s.dlm.write (s.lineIndex ch (s.cursor ch)) v } := by
  rw [dlWrite, if_pos ⟨hch, h.lineIndex_lt hch (h.cursor_lt hch)⟩]

/-- Where CHSTEP(i, ch) stands, the line is allocated and `BASE_D` is an offset of it (44_render.md R191, R193). -/
theorem State.Inv.chan_fits {s : State} (h : s.Inv) {i ch : Nat} (hseq : s.seq = .chan i ch) :
    ch < s.nch.toNat ∧ 1 ≤ s.baseD ∧ s.baseD ≤ s.cap := by
  obtain ⟨-, hp, hlo, hhi⟩ := h.blockFits (by simp [hseq])
  have hr := h.seqRange
  simp only [hseq, Seq.inBlock, Bool.and_eq_true, decide_eq_true_eq] at hr
  omega

/-- A Zeno tap sum over offsets in `[1, CAP]` of an allocated line reads no index out of range. -/
theorem zenoEcho_goesOn {s : State} (h : s.Inv) {ch : Nat} (hch : ch < s.nch.toNat) (offs : List Nat)
    (hoffs : ∀ off ∈ offs, 1 ≤ off ∧ off ≤ s.cap) (d : Nat) (g echo : Word) : GoesOn (zenoEcho s ch offs d g echo) := by
  induction offs generalizing d g echo with
  | nil => exact .ok echo
  | cons off offs ih =>
    obtain ⟨hlo, hhi⟩ := hoffs off (by simp)
    have hread : GoesOn (dlRead s ch off) := h.dlRead_eq hch hlo hhi ▸ .ok _
    exact hread.bind fun _ => ih (fun o ho => hoffs o (List.mem_cons_of_mem _ ho)) _ _ _

theorem delayPath_goesOn {s : State} (h : s.Inv) {i ch : Nat} (hseq : s.seq = .chan i ch) (d : Nat) (z : Bool)
    (input : Word) (fb : Word64) : GoesOn (delayPath s d ch z input fb) := by
  obtain ⟨hch, hlo, hhi⟩ := h.chan_fits hseq
  cases z with
  | true =>
    have htaps : ∀ off ∈ zenoTaps s.baseD, 1 ≤ off ∧ off ≤ s.cap := fun off ho =>
      (zenoOffsets_bounds _ _ off ho).imp_right (·.trans hhi)
    exact (zenoEcho_goesOn h hch _ htaps _ _ _).bind fun _ => .ok _
  | false =>
    have hread : GoesOn (dlRead s ch s.baseD) := h.dlRead_eq hch hlo hhi ▸ .ok _
    exact hread.bind fun _ => .ok _

/-! ### The micro-steps of a block -/

theorem frameBegin_goesOn (i : Nat) (s : State) : GoesOn (frameBegin i s) := .bind (Flag.read_goesOn _ _) fun _ => by
  simp only
  split
  · exact .bind (Reg32.read_goesOn _ _) fun _ => .ok _
  · exact .ok _

theorem feedbackFor_goesOn (s : State) (z : Bool) : GoesOn (s.feedbackFor z) := by
  cases z
  · exact Reg64.read_goesOn _ _
  · exact .ok 0

theorem chStep_goesOn {s : State} (h : s.Inv) {i ch : Nat} (hseq : s.seq = .chan i ch) : GoesOn (chStep i ch s) :=
  .bind (Flag.read_goesOn _ _) fun z => .bind (feedbackFor_goesOn s z) fun fb => .bind (Reg64.read_goesOn _ _) fun _ =>
    .bind (Reg64.read_goesOn _ _) fun _ => .bind (delayPath_goesOn h hseq _ z _ fb) fun res =>
      .bind (h.dlWrite_eq (h.chan_fits hseq).1 res.write ▸ .ok _) fun _ => .ok _

theorem microStep_exists_next {s : State} (h : s.Inv) : ∃ t, microStep s = .next t := by
  cases hseq : s.seq with
  | idle => exact ⟨s, by simp [microStep, hseq]⟩
  | frame i => simpa [microStep, hseq] using (frameBegin_goesOn i s).settle_exists_next
  | chan i ch => simpa [microStep, hseq] using (chStep_goesOn h hseq).settle_exists_next

theorem eventStep_exists_next {s : State} (h : s.Inv) (e : Event) : ∃ t, eventStep e s = .next t := by
  cases e with
  | micro => exact microStep_exists_next h
  | half p w => exact ⟨_, rfl⟩
  | command p => exact commandStep_exists_next p s
  | visibility => exact ⟨_, rfl⟩

/-- Settles O15: the choice of the agent keeps the invariant, and in the invariant every event goes on; only CHSTEP
forms DLM indices, at an allocated channel and at offsets in `[1, BASE_D]`. -/
theorem unfaultedStepGoesOn : Obligations.UnfaultedStepGoesOn := by
  intro s h hf
  cases hp : s.pick with
  | none => exact ⟨s, step_of_pick_none hf hp⟩
  | some c =>
    obtain ⟨u, s'⟩ := c
    have hs' : s'.Inv := by
      rcases (State.pick_some hp).2 with rfl | rfl
      · exact h
      · exact { h with }
    rw [step_of_pick hf hp]
    exact eventStep_exists_next hs' _

end Sys2Proof.Machine
end

section
/-! PROOFS. `WEAK_VIS`: what a port C SETP leaves pending, what a GETP of port C sees of it, and the visibility events
(20_memory.md R86). -/

namespace Sys2Proof.Machine

open Sys2Proof.Claims

/-! ### SETP under `WEAK_VIS` -/

/-- On port C under `WEAK_VIS` a write event changes the pending set only. -/
theorem issueWrite_pending {s : State} (hp : s.port = .c) (hw : s.cfg.weakVis = true) (w : RegWrite) :
    s.issueWrite w = { s with weakPend := s.weakPend ++ [w] } := if_pos ⟨hp, hw⟩

theorem writeWide_pending {s : State} (hp : s.port = .c) (hw : s.cfg.weakVis = true) (r : Wide) (x : Word64) :
    s.writeWide r x =
      { completed s with weakPend := s.weakPend ++ [⟨.lo r, lowWord x⟩, ⟨.hi r, highWord x⟩] } := by
  have hlo := issueWrite_pending hp hw ⟨.lo r, lowWord x⟩
  have hhi := issueWrite_pending (s := s.issueWrite ⟨.lo r, lowWord x⟩) (by rw [hlo]; exact hp) (by rw [hlo]; exact hw)
    ⟨.hi r, highWord x⟩
  rw [State.writeWide, if_pos ⟨hp, hw⟩, hhi, hlo, List.append_assoc]
  simp [State.complete, completed, hp]

/-- SETP of a binary64 register (41_parameter_store.md R131). -/
theorem execSetp_wide {pa : BitVec 4} {r : Wide} (h : paramAt pa = some (.wide r)) (v : Word) (s : State) :
    exec (.setp pa v) s = .next ((s.drawn 2).writeWide r (storedWide s.cfg s.draws r v)) := by
  simp only [exec, execSetp, h]

/-- A write event of port C under `WEAK_VIS` that is a whole command. -/
theorem complete_issueWrite_pending {s : State} (hp : s.port = .c) (hw : s.cfg.weakVis = true) (w : RegWrite) :
    (s.issueWrite w).complete s.port = { completed s with weakPend := s.weakPend ++ [w] } := by
  rw [issueWrite_pending hp hw]
  rfl

/-- Settles O33: each write event of the SETP joins the pending set, and the command completes. -/
theorem setpUnderWeakVisibilityIsPending : Obligations.SetpUnderWeakVisibilityIsPending := by
  intro v s hp hw
  have small (w : RegWrite) := congrArg (Host.Outcome.next : State → Answer) (complete_issueWrite_pending hp hw w)
  refine ⟨fun pa r hpa => ?_, small _, small _, small _⟩
  rw [execSetp_wide hpa, writeWide_pending (s := s.drawn 2) hp hw]
  rfl

/-! ### GETP after it -/

/-- Applying write events changes no parameter of the implementation. -/
theorem cfg_foldl_applyWrite (l : List RegWrite) (s : State) : (l.foldl State.applyWrite s).cfg = s.cfg := by
  induction l generalizing s with
  | nil => rfl
  | cons w l ih => exact ih (s.applyWrite w)

theorem execGetp_of_value {pa : BitVec 4} {s : State} {v : Word} (h : getpValue s.getpView s.draws pa = .ok v) :
    exec (.getp pa) s = .next { answered s v with draws := s.draws + 2 } := by
  simp only [exec, execGetp, h]
  rfl

/-- A GETP of port C under `WEAK_VIS` applies the latest pending writes last, so it answers what they give on top of
any registers. -/
theorem execGetp_of_latest_pending {pa : BitVec 4} {s : State} {v : Word} {old new : List RegWrite} (hp : s.port = .c)
    (hw : s.cfg.weakVis = true) (h : s.weakPend = old ++ new)
    (hv : ∀ u : State, u.cfg = s.cfg → getpValue (new.foldl State.applyWrite u) s.draws pa = .ok v) :
    exec (.getp pa) s = .next { answered s v with draws := s.draws + 2 } := by
  apply execGetp_of_value
  rw [State.getpView, if_pos ⟨hp, hw⟩, State.withPending, h, List.foldl_append]
  exact hv _ (cfg_foldl_applyWrite old s)

/-- Both half-write events, one after the other, leave the whole value in the register. -/
theorem read_after_both_halves (x : Reg64) (r : Wide) (v : Word64) (id : Word) :
    ((x.after r ⟨.lo r, lowWord v⟩).after r ⟨.hi r, highWord v⟩).read id = .ok v := by
  simp [Reg64.after_lo, Reg64.after_hi, Reg64.read, joinWords_parts]

theorem getpValue_after_both_halves {pa : BitVec 4} {r : Wide} (hpa : paramAt pa = some (.wide r)) (u : State) (d : Nat)
    (x : Word64) :
    getpValue ([⟨.lo r, lowWord x⟩, ⟨.hi r, highWord x⟩].foldl State.applyWrite u) d pa =
      .ok (returnedWide u.cfg d r x) := by
  simp only [getpValue, hpa, List.foldl, State.wide_applyWrite, read_after_both_halves]
  rfl

/-- Settles O36: the SETP leaves its write events last in the pending set, and the GETP applies them last. -/
theorem getpSeesOwnPendingWrites : Obligations.GetpSeesOwnPendingWrites := by
  intro v s t hp hw
  obtain ⟨hwide, hzeno, hpingpong, hfreq⟩ := setpUnderWeakVisibilityIsPending v s hp hw
  refine ⟨fun pa r hpa hs => ?_, fun hs => ?_, fun hs => ?_, fun hs => ?_⟩
  · cases (hwide pa r hpa).symm.trans hs
    exact execGetp_of_latest_pending (s := { completed s with weakPend := _, draws := _ }) hp hw rfl fun u hu =>
      hu ▸ getpValue_after_both_halves hpa u _ _
  · cases hzeno.symm.trans hs
    exact execGetp_of_latest_pending (s := { completed s with weakPend := _ }) hp hw rfl fun _ _ => by
      cases wordToBool v <;> rfl
  · cases hpingpong.symm.trans hs
    exact execGetp_of_latest_pending (s := { completed s with weakPend := _ }) hp hw rfl fun _ _ => by
      cases wordToBool v <;> rfl
  · cases hfreq.symm.trans hs
    exact execGetp_of_latest_pending (s := { completed s with weakPend := _ }) hp hw rfl fun _ _ => rfl

/-! ### Visibility events -/

/-- The place in the pending set of the write that the next visibility event chooses. -/
def State.pendingChosen (s : State) : Nat := if s.weakPend.length = 1 then 0 else s.choice % s.weakPend.length

theorem State.pendingChosen_lt {s : State} (h : s.weakPend ≠ []) : s.pendingChosen < s.weakPend.length := by
  have hpos := List.length_pos_iff.2 h
  unfold State.pendingChosen
  split
  · exact hpos
  · exact Nat.mod_lt _ hpos

/-- A prescribed choice within the pending set is the place chosen. -/
theorem pendingChosen_prescribed {s : State} {n : Nat} (h : n < s.weakPend.length) :
    { s with choices := n :: s.choices }.pendingChosen = n := by
  show (if s.weakPend.length = 1 then 0 else n % s.weakPend.length) = n
  split
  · omega
  · exact Nat.mod_eq_of_lt h

/-- A visibility event applies and removes the oldest pending write of the half that the chosen write `y` is of. -/
theorem applyPending_of_chosen {s : State} {y : RegWrite} (h : s.weakPend[s.pendingChosen]? = some y) :
    ∃ (before after : List RegWrite) (w : RegWrite), s.weakPend = before ++ w :: after ∧
      (∀ x ∈ before, x.slot ≠ w.slot) ∧ w.slot = y.slot ∧
      s.applyPending = { s.applyWrite w with
        weakPend := before ++ after, draws := s.applyPending.draws, choices := s.applyPending.choices } := by
  obtain ⟨w, before, after, hbefore, hslot, hl, herase⟩ :=
    List.exists_of_eraseP (p := fun x => decide (x.slot = y.slot)) (List.mem_of_getElem? h) (by simp)
  simp only [decide_eq_true_eq] at hbefore hslot
  have hfind : s.weakPend.find? (fun x => x.slot = y.slot) = some w := by
    rw [List.find?_eq_some_iff_append]
    exact ⟨by simpa using hslot, before, after, hl, fun x hx => by simpa using hbefore x hx⟩
  refine ⟨before, after, w, hl, fun x hx => hslot ▸ hbefore x hx, hslot, ?_⟩
  unfold State.pendingChosen at h
  simp only [State.applyPending, h, hfind, herase]
  split <;> rfl

/-- Settles O37: some pending write is chosen at every event, and prescribing the place of `y` chooses `y`. -/
theorem pendingWriteBecomesVisible : Obligations.PendingWriteBecomesVisible := by
  intro s hne
  constructor
  · obtain ⟨before, after, w, hl, hbefore, -, happly⟩ :=
      applyPending_of_chosen (List.getElem?_eq_getElem (State.pendingChosen_lt hne))
    exact ⟨before, after, w, hl, hbefore, happly⟩
  · intro y hy
    obtain ⟨n, hn, rfl⟩ := List.mem_iff_getElem.1 hy
    have hchosen : s.weakPend[{ s with choices := n :: s.choices }.pendingChosen]? = some s.weakPend[n] := by
      rw [pendingChosen_prescribed hn, List.getElem?_eq_getElem hn]
    obtain ⟨before, after, w, hl, -, hslot, happly⟩ :=
      applyPending_of_chosen (s := { s with choices := n :: s.choices }) hchosen
    exact ⟨n, before, after, w, hl, hslot, by rw [happly]⟩

end Sys2Proof.Machine
end

section
/-! PROOFS. A CHSTEP depends on one word of `IN` (20_memory.md R73, 42_delay_line.md R158). -/

namespace Sys2Proof.Machine

/-- `s` with the words of `IN` replaced. -/
def State.withInput (s : State) (m : Memory) : State := { s with inBuf := m }

theorem settle_withInput {p : Port} {s t : State} {b : Except Raise State} (m : Memory) (h : settle p s b = .next t) :
    settle p (s.withInput m) ((·.withInput m) <$> b) = .next (t.withInput m) := by
  rcases settle_next h with rfl | ⟨e, v, rfl, rfl⟩ <;> rfl

theorem zenoEcho_withInput (s : State) (m : Memory) (ch : Nat) (offs : List Nat) (d : Nat) (g echo : Word) :
    zenoEcho (s.withInput m) ch offs d g echo = zenoEcho s ch offs d g echo := by
  induction offs generalizing d g echo with
  | nil => rfl
  | cons off offs ih => exact congrArg (dlRead s ch off >>= ·) (funext fun _ => ih _ _ _)

/-- The delay algorithms see of `IN` the word they are given only. -/
theorem delayPath_withInput (s : State) (m : Memory) (d ch : Nat) (z : Bool) (input : Word) (fb : Word64) :
    delayPath (s.withInput m) d ch z input fb = delayPath s d ch z input fb := by
  cases z with
  | true => exact congrArg (· >>= _) (zenoEcho_withInput s m ch _ _ _ _)
  | false => rfl

theorem dlWrite_withInput (s : State) (m : Memory) (ch : Nat) (v : Word) :
    dlWrite (s.withInput m) ch v = (·.withInput m) <$> dlWrite s ch v := by
  unfold dlWrite
  rw [apply_ite (Functor.map (State.withInput · m))]
  rfl

/-- A CHSTEP reads `IN[ch][i]` only, so with the other words replaced it does the same, and leaves them as they are. -/
theorem chStep_withInput {i ch : Nat} {s : State} {m : Memory}
    (h : m.read (sampleIndex ch i) = s.inBuf.read (sampleIndex ch i)) :
    chStep i ch (s.withInput m) = (·.withInput m) <$> chStep i ch s := by
  have hin : (s.withInput m).inBuf.read (sampleIndex ch i) = s.inBuf.read (sampleIndex ch i) := h
  simp only [chStep, hin, map_bind, bind_map_left, delayPath_withInput, dlWrite_withInput]
  rfl

/-- Settles O58: the micro-step is the CHSTEP, whose end or fault is the same with `IN` replaced. -/
theorem channelStepReadsOneInputWord : Obligations.ChannelStepReadsOneInputWord := by
  intro i ch s t m hseq hread hstep
  have hm (u : State) (hu : u.seq = .chan i ch) : microStep u = settle .r u (chStep i ch u) := by
    simp only [microStep, hu]
  rw [hm s hseq] at hstep
  calc microStep (s.withInput m) = settle .r (s.withInput m) (chStep i ch (s.withInput m)) := hm _ hseq
    _ = settle .r (s.withInput m) ((·.withInput m) <$> chStep i ch s) := by rw [chStep_withInput hread]
    _ = .next (t.withInput m) := settle_withInput m hstep

end Sys2Proof.Machine
end

section
/-! PROOFS. The opcode rows (30_encoding.md R102, R103): what it means for a row to match a word, by the word's fields and
by its bits, and that at most one row does. -/

namespace Sys2Proof.Machine

/-! ### The fields of a word -/

/-- A word is its four fields (30_encoding.md R102). -/
theorem word_eq_iff_fields {x y : Word} :
    x = y ↔ opcField x = opcField y ∧ paField x = paField y ∧ rsvField x = rsvField y ∧ immField x = immField y := by
  refine ⟨fun h => by simp [h], fun ⟨hopc, hpa, hrsv, himm⟩ => ?_⟩
  simp only [opcField, paField, rsvField, immField, BitVec.toNat_eq, BitVec.extractLsb'_toNat,
    Nat.shiftRight_eq_div_pow] at hopc hpa hrsv himm ⊢
  omega

theorem opcField_and (x y : Word) : opcField (x &&& y) = opcField x &&& opcField y := BitVec.extractLsb'_and

theorem paField_and (x y : Word) : paField (x &&& y) = paField x &&& paField y := BitVec.extractLsb'_and

theorem rsvField_and (x y : Word) : rsvField (x &&& y) = rsvField x &&& rsvField y := BitVec.extractLsb'_and

theorem immField_and (x y : Word) : immField (x &&& y) = immField x &&& immField y := BitVec.extractLsb'_and

/-- Every row's pattern is zero outside `OPC`. -/
theorem fields_pattern (o : Op) : paField o.pattern = 0 ∧ rsvField o.pattern = 0 ∧ immField o.pattern = 0 := by
  cases o <;> decide

/-- Every row's mask has all bits of `OPC` and `RSV`. -/
theorem fields_mask (o : Op) : opcField o.mask = .allOnes 8 ∧ rsvField o.mask = .allOnes 4 := by cases o <;> decide

/-- A row matches a word when the opcode is the row's, `RSV` is zero, and so are the bits of `PA` and `IMM16` that the
row's mask has. -/
theorem selects_iff_fields {w : Word} {o : Op} :
    o.selects w = true ↔ opcField w = opcField o.pattern ∧ paField w &&& paField o.mask = 0 ∧ rsvField w = 0 ∧
      immField w &&& immField o.mask = 0 := by
  obtain ⟨hpa, hrsv, himm⟩ := fields_pattern o
  obtain ⟨hopcMask, hrsvMask⟩ := fields_mask o
  rw [Op.selects, beq_iff_eq, word_eq_iff_fields, opcField_and, paField_and, rsvField_and, immField_and, hopcMask,
    hrsvMask, hpa, hrsv, himm, BitVec.and_allOnes, BitVec.and_allOnes]

/-! ### One row for a word -/

/-- Different rows have different opcodes. -/
theorem opcField_pattern_injective {o o' : Op} (h : opcField o.pattern = opcField o'.pattern) : o = o' := by
  have hrow : ∀ x : Op, opcodeTable[(opcField x.pattern).toNat - 1]? = some x := by intro x; cases x <;> rfl
  exact Option.some.inj ((hrow o).symm.trans (h ▸ hrow o'))

/-- Settles O3: a row that matches has the word's opcode, and the rows' opcodes differ. -/
theorem atMostOneRowMatchesAWord : Obligations.AtMostOneRowMatchesAWord := fun _ _ _ h h' =>
  opcField_pattern_injective ((selects_iff_fields.1 h).1.symm.trans (selects_iff_fields.1 h').1)

theorem mem_opcodeTable (o : Op) : o ∈ opcodeTable := by cases o <;> decide

/-- The row of a word is the one that matches it. -/
theorem selectRow_eq_some_iff {w : Word} {o : Op} : selectRow w = some o ↔ o.selects w = true := by
  constructor
  · exact List.find?_some
  · intro h
    obtain ⟨o', ho'⟩ := Option.isSome_iff_exists.1 (List.find?_isSome.2 ⟨o, mem_opcodeTable o, h⟩)
    rw [selectRow, ho', atMostOneRowMatchesAWord w o' o (List.find?_some ho') h]

/-! ### The bits that a matching row fixes -/

/-- A matched word has the row's fixed bits, and its own bits outside the row's mask. -/
theorem pattern_or_of_selects {w : Word} {o : Op} (h : o.selects w = true) : o.pattern ||| (w &&& ~~~o.mask) = w := by
  have hm : w &&& o.mask = o.pattern := by simpa [Op.selects] using h
  rw [← hm, ← BitVec.and_or_distrib_left, BitVec.or_not_self, BitVec.and_allOnes]

/-- A row without operand bits in its word matches one word only. -/
theorem pattern_of_selects {w : Word} {o : Op} (hm : o.mask = 0xFFFFFFFF) (h : o.selects w = true) : o.pattern = w := by
  simpa [hm] using pattern_or_of_selects h

end Sys2Proof.Machine
end

section
/-! PROOFS. The decoder and the encoder undo each other (30_encoding.md R100 to R112). -/

namespace Sys2Proof.Machine

/-! ### The command word -/

/-- Every command has its row's number of words, and its command word selects the row. -/
theorem wordCount_statement (i : Instr) : Laws.WordCount.Statement i := by
  cases i with
  | init a b sr => exact Laws.WordCount.init a b sr
  | deinit => exact Laws.WordCount.deinit
  | setbyp b => exact Laws.WordCount.setbyp b
  | getbyp => exact Laws.WordCount.getbyp
  | setp pa v => exact Laws.WordCount.setp pa v
  | getp pa => exact Laws.WordCount.getp pa
  | setmaxf n => exact Laws.WordCount.setmaxf n
  | getmaxf => exact Laws.WordCount.getmaxf
  | process a b f t => exact Laws.WordCount.process a b f t
  | event t tag p0 p1 => exact Laws.WordCount.event t tag p0 p1
  | setctx x => exact Laws.WordCount.setctx x

theorem selects_commandWord (i : Instr) : i.op.selects (commandWord i) = true := (wordCount_statement i).2.2

theorem length_encode (i : Instr) : (encode i).length = 1 + i.op.operandCount := (wordCount_statement i).1

theorem paField_commandWord_setp (v : Word) : ∀ pa : BitVec 4, paField (commandWord (.setp pa v)) = pa := by
  simp only [commandWord]
  decide

theorem paField_commandWord_getp : ∀ pa : BitVec 4, paField (commandWord (.getp pa)) = pa := by decide

/-- A row that frees only `PA` matches the words that put a parameter address into its pattern (30_encoding.md R104). -/
theorem pattern_or_paField {w : Word} {o : Op} (hm : o.mask = 0xFF0FFFFF) (h : o.selects w = true) :
    o.pattern ||| (paField w).zeroExtend 32 <<< 20 = w := by
  have hbits : (paField w).zeroExtend 32 <<< 20 = w &&& ~~~o.mask := by
    have hmask : ~~~o.mask = (BitVec.allOnes 4).setWidth 32 <<< 20 := by rw [hm]; rfl
    rw [hmask]
    ext k hk
    simp only [paField, BitVec.getElem_and, BitVec.getElem_shiftLeft, BitVec.getElem_setWidth,
      BitVec.getLsbD_extractLsb', BitVec.getLsbD_allOnes]
    by_cases hlow : k < 20
    · simp [hlow]
    · have hindex : 20 + (k - 20) = k := by omega
      simp [hlow, hindex, BitVec.getLsbD_eq_getElem hk, Bool.and_comm]
  rw [hbits, pattern_or_of_selects h]

theorem commandWord_setbyp {w : Word} (h : Op.selects w .setbyp = true) : commandWord (.setbyp (w.getLsbD 0)) = w := by
  have hbit : (if w.getLsbD 0 then 1 else 0 : Word) = w &&& ~~~Op.mask .setbyp := by
    have hmask : ~~~Op.mask .setbyp = 1#32 := rfl
    rw [hmask, BitVec.and_one_eq_setWidth_ofBool_getLsbD]
    cases w.getLsbD 0 <;> rfl
  rw [commandWord, hbit, pattern_or_of_selects h]

theorem commandWord_setp {w : Word} (v : Word) (h : Op.selects w .setp = true) :
    commandWord (.setp (paField w) v) = w := pattern_or_paField rfl h

theorem commandWord_getp {w : Word} (h : Op.selects w .getp = true) : commandWord (.getp (paField w)) = w :=
  pattern_or_paField rfl h

/-! ### The operand words -/

/-- A row takes a command's own operand words and gives the command back. -/
theorem takeOperands_operandWords (i : Instr) (rest : List Word) :
    takeOperands (commandWord i) i.op (operandWords i ++ rest) = .ok (i, rest) := by
  cases i with
  | setbyp b => cases b <;> rfl
  | setp pa v => simp [takeOperands, operandWords, Instr.op, paField_commandWord_setp]
  | getp pa => simp [takeOperands, operandWords, Instr.op, paField_commandWord_getp]
  | init | process | event | setctx => simp [takeOperands, operandWords, Instr.op, joinWords_parts]
  | deinit | getbyp | setmaxf | getmaxf => rfl

/-- The row of a word waits for operand words, or takes those of a command whose words, the word itself included, stand at
the front of the list (30_encoding.md R106, R112). -/
theorem takeOperands_cases {w : Word} {o : Op} (h : o.selects w = true) (ws : List Word) :
    takeOperands w o ws = .error .truncated ∨ ∃ i rest, takeOperands w o ws = .ok (i, rest) ∧ i.op = o ∧
      w :: ws = encode i ++ rest := by
  fun_cases takeOperands w o ws
  -- SETBYP, SETP and GETP have operand bits in the command word; the other rows' words are their patterns.
  case case4 =>
    refine .inr ⟨_, _, rfl, rfl, ?_⟩
    rw [encode, commandWord_setbyp h]
    rfl
  case case6 => simp [encode, Instr.op, operandWords, commandWord_setp _ h]
  case case8 => simp [encode, Instr.op, operandWords, commandWord_getp h]
  case case1 | case3 | case5 | case9 | case11 | case12 | case14 | case16 =>
    have hw := pattern_of_selects rfl h
    simp [encode, Instr.op, operandWords, commandWord, hw, lowWord_joinWords, highWord_joinWords]
  all_goals exact .inl rfl

/-! ### The decoder -/

theorem decodeOn_of_selects {p : Port} {w : Word} {o : Op} (h : o.selects w = true) (hp : o.acceptedOn p = true)
    (ws : List Word) : decodeOn p (w :: ws) = takeOperands w o ws := by
  simp [decodeOn, selectRow_eq_some_iff.2 h, hp]

theorem rejectReason_ne_truncated (w : Word) : rejectReason w ≠ .truncated := by
  unfold rejectReason
  split_ifs <;> exact nofun

/-- A word that no row of the port matches is refused, whatever follows it (30_encoding.md R109). -/
theorem decodeOn_of_no_row {p : Port} {w : Word} (h : ¬∃ o : Op, o.selects w = true ∧ o.acceptedOn p = true)
    (ws : List Word) : ∃ e, e ≠ .truncated ∧ decodeOn p (w :: ws) = .error e := by
  cases hrow : selectRow w with
  | none => exact ⟨rejectReason w, rejectReason_ne_truncated w, by simp [decodeOn, hrow]⟩
  | some o =>
    have hp : o.acceptedOn p ≠ true := fun hp => h ⟨o, selectRow_eq_some_iff.1 hrow, hp⟩
    exact ⟨.wrongPort, nofun, by simp [decodeOn, hrow, hp]⟩

/-- Settles O1: the command word selects the command's row, and the row takes the command's operand words. -/
theorem encodeThenDecode : Obligations.EncodeThenDecode := fun _ i rest hp =>
  (decodeOn_of_selects (selects_commandWord i) hp _).trans (takeOperands_operandWords i rest)

/-- Settles O2: a list that decodes begins with a word that a row of the port matches, and that row takes the words of
the command it gives. -/
theorem decodeThenEncode : Obligations.DecodeThenEncode := by
  intro p ws i rest h
  cases ws with
  | nil => cases h
  | cons w ws =>
    by_cases hrow : ∃ o : Op, o.selects w = true ∧ o.acceptedOn p = true
    · obtain ⟨o, ho, hp⟩ := hrow
      rw [decodeOn_of_selects ho hp] at h
      rcases takeOperands_cases ho ws with he | ⟨i', rest', hi, hop, hws⟩
      · cases he.symm.trans h
      · cases hi.symm.trans h
        exact ⟨hws, by rw [Instr.wellFormed, hop, hp]⟩
    · obtain ⟨e, -, he⟩ := decodeOn_of_no_row hrow ws
      cases he.symm.trans h

/-- Settles O5, by evaluating the decoder on each row's words. -/
theorem specExampleWordsDecode : Obligations.SpecExampleWordsDecode :=
  ⟨rfl, rfl, rfl, rfl, rfl, rfl, rfl, rfl, rfl, rfl, rfl, rfl, rfl, rfl, rfl, rfl, rfl⟩

end Sys2Proof.Machine
end

section
/-! PROOFS. The illegal command words of 30_encoding.md R109 are those that no row of the port matches; what they raise, and
what a command of port R raises on port C. -/

namespace Sys2Proof.Machine

/-! ### The clauses of R109, for a word with the opcode of a row -/

/-- The clause of R109 about `OPC`: only a row's own opcode is assigned. -/
theorem opcField_pattern_assigned (o : Op) : opcField o.pattern ≠ 0x00 ∧ ¬0x0C ≤ opcField o.pattern := by
  cases o <;> decide

/-- The clause of R109 about `PA`: SETP and GETP have one, and the other rows' masks have all its bits. -/
theorem paField_clause (o : Op) : ∀ x : BitVec 4,
    x &&& paField o.mask ≠ 0 ↔ x ≠ 0 ∧ opcField o.pattern ≠ 0x05 ∧ opcField o.pattern ≠ 0x06 := by
  cases o <;> decide

/-- The clauses of R109 about `IMM16`: bit 0 of SETBYP is free, and the other rows' masks have all its bits. -/
theorem immField_clause (o : Op) (x : BitVec 16) :
    x &&& immField o.mask ≠ 0 ↔
      (opcField o.pattern = 0x03 ∧ x &&& 0xFFFE ≠ 0) ∨ (opcField o.pattern ≠ 0x03 ∧ x ≠ 0) := by
  by_cases ho : o = .setbyp
  · subst ho
    have hopc : opcField (Op.pattern .setbyp) = 0x03 := rfl
    have hmask : immField (Op.mask .setbyp) = 0xFFFE := rfl
    simp [hopc, hmask]
  · have hopc : opcField o.pattern ≠ 0x03 := fun h => ho (opcField_pattern_injective h)
    have hmask : immField o.mask = .allOnes 16 := by
      cases o with
      | setbyp => exact absurd rfl ho
      | _ => rfl
    rw [hmask, BitVec.and_allOnes]
    tauto

/-- The clause of R109 about port R commands on port C (R101). -/
theorem acceptedOn_clause (p : Port) (o : Op) : ¬o.acceptedOn p = true ↔ p = .c ∧ opcField o.pattern ≠ 0x03 ∧
    opcField o.pattern ≠ 0x04 ∧ opcField o.pattern ≠ 0x05 ∧ opcField o.pattern ≠ 0x06 := by
  cases p <;> cases o <;> decide

/-- A word with the opcode of a row is legal on a port exactly when the row matches it and the port accepts the row. -/
theorem illegalWord_iff_of_opcField {p : Port} {w : Word} {o : Op} (h : opcField w = opcField o.pattern) :
    illegalWord p w ↔ ¬(o.selects w = true ∧ o.acceptedOn p = true) := by
  obtain ⟨hzero, hlt⟩ := opcField_pattern_assigned o
  rw [selects_iff_fields, illegalWord, h, ← paField_clause, ← acceptedOn_clause,
    ← or_assoc (b := _ ∧ immField w ≠ 0), ← immField_clause]
  tauto

/-! ### Words without a row -/

/-- An opcode that R109 does not call unassigned is some row's. -/
theorem exists_row_of_opcField : ∀ c : BitVec 8, c ≠ 0x00 → ¬0x0C ≤ c → ∃ o ∈ opcodeTable, c = opcField o.pattern := by
  decide

/-- A word is illegal on a port in R109's terms exactly when the port accepts no row that matches it (R103). -/
theorem illegalWord_iff_no_row {p : Port} {w : Word} :
    illegalWord p w ↔ ¬∃ o : Op, o.selects w = true ∧ o.acceptedOn p = true := by
  constructor
  · rintro h ⟨o, ho, hp⟩
    exact (illegalWord_iff_of_opcField (selects_iff_fields.1 ho).1).1 h ⟨ho, hp⟩
  · intro h
    by_cases hopc : opcField w = 0x00 ∨ 0x0C ≤ opcField w
    · exact hopc.elim .inl fun h => .inr (.inl h)
    · obtain ⟨hzero, hlt⟩ := not_or.1 hopc
      obtain ⟨o, -, ho⟩ := exists_row_of_opcField _ hzero hlt
      exact (illegalWord_iff_of_opcField ho).2 fun hrow => h ⟨o, hrow⟩

/-- An illegal word is refused before any operand word is looked at. -/
theorem acceptOn_illegal {p : Port} {w : Word} (h : illegalWord p w) (ws : List Word) :
    acceptOn p (w :: ws) = .illegal w ws := by
  obtain ⟨e, hne, he⟩ := decodeOn_of_no_row (illegalWord_iff_no_row.1 h) ws
  cases e with
  | truncated => exact absurd rfl hne
  | _ => simp [acceptOn, he]

/-- Settles O4: a word without a row is refused with the words after it left; any other word has a row, which waits for its
operand words or gives a command. -/
theorem illegalWordsFaultAndConsumeNoOperand : Obligations.IllegalWordsFaultAndConsumeNoOperand := by
  intro p s w rest hq
  refine ⟨fun h => ?_, fun h => ?_⟩
  · rw [commandStep, hq, acceptOn_illegal h]
    rfl
  · obtain ⟨o, ho, hp⟩ := not_not.1 (illegalWord_iff_no_row.not.1 h)
    rw [acceptOn, decodeOn_of_selects ho hp]
    rcases takeOperands_cases ho rest with he | ⟨i, more, hi, -, -⟩
    · exact .inl (by rw [he])
    · exact .inr ⟨i, more, by rw [hi]⟩

/-! ### Commands of port R on port C -/

/-- A command that begins with its port check enters `ILLEGAL_CMD` on port C, whatever it would do next. -/
theorem settle_renderOnly_controlPort {s : State} {o : Op} (hs : s.port = .c) (ho : o.acceptedOn .c = false)
    (body : Unit → Except Raise State) :
    settle s.port s (renderOnly s o >>= body) = .next (Claims.faultedWith s .c 1 o.pattern) := by
  rw [renderOnly, hs, ho]
  rfl

/-- Settles O22: the meaning of every command that port C does not accept begins with the port check. -/
theorem renderCommandOnControlPortIsIllegal : Obligations.RenderCommandOnControlPortIsIllegal := by
  intro i s hs hi
  cases i with
  | setbyp | getbyp | setp | getp => cases hi
  | init | deinit | setmaxf | getmaxf | process | event | setctx => exact settle_renderOnly_controlPort hs hi _

end Sys2Proof.Machine
end

section
/-! PROOFS. A command delivered by `State.withFetchWord` is executed by the next step (log 1). -/

namespace Sys2Proof.Machine

/-! ### The words delivered -/

theorem decodeTableWord_eq_some {nbits w : Nat} {i : Instr} (h : decodeTableWord nbits w = some i) :
    ∃ rest, decodeOn .r (tableWords nbits w) = .ok (i, rest) := by
  unfold decodeTableWord at h
  split at h
  · rename_i j rest hd
    cases h
    exact ⟨rest, hd⟩
  · cases h

/-- `commandWords` are the words of the command that the bits decode to. -/
theorem commandWords_eq_encode {nbits w : Nat} {i : Instr} (h : decodeTableWord nbits w = some i) :
    commandWords nbits w = encode i := by
  obtain ⟨rest, hd⟩ := decodeTableWord_eq_some h
  obtain ⟨hws, -⟩ := decodeThenEncode _ _ _ _ hd
  calc commandWords nbits w = (tableWords nbits w).take (1 + i.op.operandCount) := by simp only [commandWords, hd]
    _ = (encode i ++ rest).take (encode i).length := by rw [hws, length_encode]
    _ = encode i := List.take_left

/-! ### The agent that moves after a delivery -/

/-- `s` with `ws` delivered on port R, and nothing else of port R or the datapath in progress: what `State.deliver` makes,
but for the choice of the agent. -/
def State.loaded (s : State) (ws : List Word) : State :=
  { s with inR := ws, seq := .idle, halfR := none, faultCode := 0 }

theorem deliver_eq (s : State) (ws : List Word) : s.deliver ws =
    if (s.loaded ws).controlReady = true ∨ (s.loaded ws).weakPend ≠ [] then
      { s.loaded ws with choices := 0 :: s.choices } else s.loaded ws := rfl

/-- Port R is the only agent that can move when port C is not ready and nothing is pending. -/
theorem enabled_of_quiet {s : State} (hr : s.renderReady = true) (h : ¬(s.controlReady = true ∨ s.weakPend ≠ [])) :
    s.enabled = [.render] := by
  obtain ⟨hc, hw⟩ := not_or.1 h
  simp [State.enabled, hr, hc, not_not.1 hw]

/-- Otherwise port R is the first of several agents that can move. -/
theorem enabled_of_contended {s : State} (hr : s.renderReady = true) (h : s.controlReady = true ∨ s.weakPend ≠ []) :
    ∃ u more, s.enabled = .render :: u :: more := by
  by_cases hc : s.controlReady = true
  · exact ⟨.control, if s.weakPend = [] then [] else [.visibility], by simp [State.enabled, hr, hc]⟩
  · have hw : s.weakPend ≠ [] := h.resolve_left hc
    exact ⟨.visibility, [], by simp [State.enabled, hr, hc, hw]⟩

theorem pick_first_of_several {s : State} {u v : Turn} {more : List Turn} (h : s.enabled = u :: v :: more)
    (hc : s.choice = 0) : s.pick = some (u, s.choiceUsed) := by simp [State.pick, h, hc]

theorem loaded_renderReady {s : State} {ws : List Word} {i : Instr} {rest : List Word}
    (h : decodeOn .r ws = .ok (i, rest)) : (s.loaded ws).renderReady = true := by
  have hready : (s.loaded ws).portReady .r = true := by
    have ha : acceptOn .r ((s.loaded ws).queue .r) = .run i rest := acceptOn_run.2 h
    rw [State.portReady, ha]
    rfl
  rw [State.renderReady, hready, Bool.or_true]

/-- After a delivery port R moves next, in the loaded state; a choice is used where another agent could move too. -/
theorem deliver_pick {s : State} {ws : List Word} (h : (s.loaded ws).renderReady = true) :
    ∃ d, (d = s.draws ∨ d = s.draws + 1) ∧ (s.deliver ws).pick = some (.render, { s.loaded ws with draws := d }) := by
  by_cases hq : (s.loaded ws).controlReady = true ∨ (s.loaded ws).weakPend ≠ []
  · obtain ⟨u, more, hen⟩ := enabled_of_contended h hq
    refine ⟨s.draws + 1, .inr rfl, ?_⟩
    rw [deliver_eq, if_pos hq]
    exact pick_first_of_several (s := { s.loaded ws with choices := 0 :: s.choices }) hen rfl
  · refine ⟨s.draws, .inl rfl, ?_⟩
    rw [deliver_eq, if_neg hq, State.pick, enabled_of_quiet h hq]
    rfl

theorem deliver_not_faulted (s : State) (ws : List Word) : (s.deliver ws).faulted = false := by
  rw [deliver_eq]
  split <;> rfl

/-- Settles O8: port R is picked, its words are those of the command, and none is left when they are decoded. -/
theorem deliveredCommandRunsNext : Obligations.DeliveredCommandRunsNext := by
  intro s nbits w i h
  have hdecode : decodeOn .r (commandWords nbits w) = .ok (i, []) := by
    rw [commandWords_eq_encode h, ← List.append_nil (encode i)]
    exact encodeThenDecode .r i [] rfl
  obtain ⟨d, hd, hpick⟩ := deliver_pick (s := s) (loaded_renderReady hdecode)
  refine ⟨d, hd, ?_⟩
  calc step (s.withFetchWord nbits w) = eventStep (.command .r) { s.loaded (commandWords nbits w) with draws := d } :=
        step_of_pick (deliver_not_faulted s _) hpick
    _ = exec i (State.begin { s.loaded (commandWords nbits w) with draws := d } .r []) := commandStep_of_decode hdecode
    _ = exec i { s with inR := [], seq := .idle, halfR := none, faultCode := 0, port := .r, draws := d } :=
        congrArg (exec i) rfl

end Sys2Proof.Machine
end

section
/-! PROOFS. The arithmetic of 00_scope.md R16 on finite operands, and the conversions of 41_parameter_store.md R130. -/

namespace Sys2Proof.Machine

open Sys2Proof.Claims

/-! ### Results -/

theorem Format.roundMag_le_infBits (f : Format) (ftz : Bool) (num den : Nat) : f.roundMag ftz num den ≤ f.infBits := by
  simp only [Format.roundMag]
  split_ifs <;> omega

theorem toNat_result32 (d : Nat) (ftz neg : Bool) (num den : Nat) :
    (result32 d (some (binary32.pattern neg (binary32.roundMag ftz num den)))).toNat = rounded binary32 ftz neg num den := by
  have hlt := binary32.pattern_lt neg (binary32.roundMag_le_infBits ftz num den)
  rw [result32, BitVec.toNat_ofNat, Nat.mod_eq_of_lt (hlt.trans_le (by decide)), rounded, Format.pattern, Format.signBit]

theorem toNat_result64 (d : Nat) (ftz neg : Bool) (num den : Nat) :
    (result64 d (some (binary64.pattern neg (binary64.roundMag ftz num den)))).toNat = rounded binary64 ftz neg num den := by
  have hlt := binary64.pattern_lt neg (binary64.roundMag_le_infBits ftz num den)
  rw [result64, BitVec.toNat_ofNat, Nat.mod_eq_of_lt (hlt.trans_le (by decide)), rounded, Format.pattern, Format.signBit]

theorem binary32_unit : binary32.unit = 149 := rfl

theorem binary64_unit : binary64.unit = 1074 := rfl

/-! ### Finite operands -/

/-- The datum of a finite pattern, in the words of the statements. -/
theorem Format.datum_of_finite (f : Format) {bits : Nat} (hbits : bits < 2 * f.signBit) (h : magOf f bits < f.infBits) :
    f.datum bits = .fin (negative f bits) (unitsOf f (magOf f bits)) := by
  have hfinite : f.datum bits ≠ .nan := mt (f.datum_eq_nan_iff_lt bits).1 (not_lt.2 h.le)
  obtain ⟨neg, mag, hmag, rfl⟩ := f.exists_pattern hbits hfinite
  have hlt : mag < 2 ^ (f.expo + f.frac) := hmag.trans_lt f.infBits_lt_signBit
  have hmagOf : magOf f (f.pattern neg mag) = mag := by
    cases neg <;> simp [magOf, Format.pattern, Format.signBit, Nat.mod_eq_of_lt hlt]
  have hneg : negative f (f.pattern neg mag) = neg := by
    cases neg <;> simp [negative, Format.pattern, Format.signBit, Nat.add_div_left, Nat.div_eq_of_lt hlt]
  rw [hmagOf] at h
  rw [hmagOf, hneg, f.datum_pattern neg hmag, if_neg h.ne]

theorem datum32_of_finite {a : Word} (h : magOf binary32 a.toNat < binary32.infBits) :
    datum32 a = .fin (negative binary32 a.toNat) (unitsOf binary32 (magOf binary32 a.toNat)) :=
  binary32.datum_of_finite a.isLt h

theorem datum64_of_finite {a : Word64} (h : magOf binary64 a.toNat < binary64.infBits) :
    datum64 a = .fin (negative binary64 a.toNat) (unitsOf binary64 (magOf binary64 a.toNat)) :=
  binary64.datum_of_finite a.isLt h

theorem unitsOf_ne_zero (f : Format) {mag : Nat} (h : mag ≠ 0) : unitsOf f mag ≠ 0 :=
  ((unitsOf_strictMono f).lt_iff_lt.2 (Nat.pos_of_ne_zero h)).ne_bot

/-- A sum that is not 0 is rounded once. -/
theorem Format.sum_of_ne_zero (f : Format) (ftz : Bool) {s t : Bool} {m n : Nat}
    (h : signedUnits s m + signedUnits t n ≠ 0) :
    f.sum ftz (.fin s m) (.fin t n) = some (f.pattern (decide (signedUnits s m + signedUnits t n < 0))
      (f.roundMag ftz (signedUnits s m + signedUnits t n).natAbs 1)) := if_neg h

/-- A quotient by a divisor that is not 0 is rounded once. -/
theorem Format.quotient_of_ne_zero (f : Format) (ftz s t : Bool) (m : Nat) {n : Nat} (h : n ≠ 0) :
    f.quotient ftz (.fin s m) (.fin t n) = some (f.pattern (s ^^ t) (f.roundMag ftz (m * 2 ^ f.unit) n)) := if_neg h

/-! ### The operations -/

section binary64
variable {a b : Word64} (ha : magOf binary64 a.toNat < binary64.infBits) (hb : magOf binary64 b.toNat < binary64.infBits)
include ha

theorem toNat_narrow (ftz : Bool) (d : Nat) :
    (narrow ftz d a).toNat = rounded binary32 ftz (negative binary64 a.toNat)
      (unitsOf binary64 (magOf binary64 a.toNat) * 2 ^ 149) (2 ^ 1074) := by
  rw [narrow, datum64_of_finite ha, Format.convert, binary32_unit, binary64_unit, toNat_result32]

include hb

theorem toNat_mul64 (ftz : Bool) (d : Nat) :
    (mul64 ftz d a b).toNat = rounded binary64 ftz (negative binary64 a.toNat ^^ negative binary64 b.toNat)
      (unitsOf binary64 (magOf binary64 a.toNat) * unitsOf binary64 (magOf binary64 b.toNat)) (2 ^ 1074) := by
  rw [mul64, datum64_of_finite ha, datum64_of_finite hb, Format.product, binary64_unit, toNat_result64]

theorem toNat_div64 (ftz : Bool) (d : Nat) (h : magOf binary64 b.toNat ≠ 0) :
    (div64 ftz d a b).toNat = rounded binary64 ftz (negative binary64 a.toNat ^^ negative binary64 b.toNat)
      (unitsOf binary64 (magOf binary64 a.toNat) * 2 ^ 1074) (unitsOf binary64 (magOf binary64 b.toNat)) := by
  rw [div64, datum64_of_finite ha, datum64_of_finite hb, Format.quotient_of_ne_zero _ _ _ _ _ (unitsOf_ne_zero _ h),
    binary64_unit, toNat_result64]

theorem toNat_add64 (ftz : Bool) (d : Nat) (h : valueOf binary64 a.toNat + valueOf binary64 b.toNat ≠ 0) :
    (add64 ftz d a b).toNat = rounded binary64 ftz (decide (valueOf binary64 a.toNat + valueOf binary64 b.toNat < 0))
      (valueOf binary64 a.toNat + valueOf binary64 b.toNat).natAbs 1 := by
  rw [add64, datum64_of_finite ha, datum64_of_finite hb, Format.sum_of_ne_zero _ _ h]
  exact toNat_result64 d ftz _ _ _

end binary64

section binary32
variable {a b : Word} (ha : magOf binary32 a.toNat < binary32.infBits) (hb : magOf binary32 b.toNat < binary32.infBits)
include ha

theorem toNat_widen (d : Nat) :
    (widen d a).toNat = rounded binary64 false (negative binary32 a.toNat)
      (unitsOf binary32 (magOf binary32 a.toNat) * 2 ^ 1074) (2 ^ 149) := by
  rw [widen, datum32_of_finite ha, Format.convert, binary32_unit, binary64_unit, toNat_result64]

include hb

theorem toNat_mul32 (ftz : Bool) (d : Nat) :
    (mul32 ftz d a b).toNat = rounded binary32 ftz (negative binary32 a.toNat ^^ negative binary32 b.toNat)
      (unitsOf binary32 (magOf binary32 a.toNat) * unitsOf binary32 (magOf binary32 b.toNat)) (2 ^ 149) := by
  rw [mul32, datum32_of_finite ha, datum32_of_finite hb, Format.product, binary32_unit, toNat_result32]

theorem toNat_add32 (ftz : Bool) (d : Nat) (h : valueOf binary32 a.toNat + valueOf binary32 b.toNat ≠ 0) :
    (add32 ftz d a b).toNat = rounded binary32 ftz (decide (valueOf binary32 a.toNat + valueOf binary32 b.toNat < 0))
      (valueOf binary32 a.toNat + valueOf binary32 b.toNat).natAbs 1 := by
  rw [add32, datum32_of_finite ha, datum32_of_finite hb, Format.sum_of_ne_zero _ _ h]
  exact toNat_result32 d ftz _ _ _

end binary32

/-! ### Subtraction: the sign bit of the second operand is turned -/

theorem magOf_flipSign (b : Word) : magOf binary32 (b ^^^ 0x80000000#32).toNat = magOf binary32 b.toNat := by
  show (b ^^^ 0x80000000#32).toNat % 2 ^ 31 = b.toNat % 2 ^ 31
  rw [BitVec.toNat_xor, Nat.xor_mod_two_pow]
  exact Nat.xor_zero _

theorem negative_flipSign (b : Word) : negative binary32 (b ^^^ 0x80000000#32).toNat = !negative binary32 b.toNat := by
  show decide ((b ^^^ 0x80000000#32).toNat / 2 ^ 31 % 2 = 1) = !decide (b.toNat / 2 ^ 31 % 2 = 1)
  have hxor : (b ^^^ 0x80000000#32).toNat / 2 ^ 31 % 2 = (b.toNat / 2 ^ 31 % 2) ^^^ 1 := by
    rw [BitVec.toNat_xor, Nat.xor_div_two_pow]
    exact Nat.xor_mod_two_pow (n := 1)
  rw [hxor]
  rcases Nat.mod_two_eq_zero_or_one (b.toNat / 2 ^ 31) with h | h <;> rw [h] <;> decide

theorem valueOf_flipSign (b : Word) : valueOf binary32 (b ^^^ 0x80000000#32).toNat = -valueOf binary32 b.toNat := by
  rw [valueOf, valueOf, magOf_flipSign, negative_flipSign]
  cases negative binary32 b.toNat <;> simp

theorem toNat_sub32 {a b : Word} (ha : magOf binary32 a.toNat < binary32.infBits)
    (hb : magOf binary32 b.toNat < binary32.infBits) (ftz : Bool) (d : Nat)
    (h : valueOf binary32 a.toNat - valueOf binary32 b.toNat ≠ 0) :
    (sub32 ftz d a b).toNat = rounded binary32 ftz (decide (valueOf binary32 a.toNat - valueOf binary32 b.toNat < 0))
      (valueOf binary32 a.toNat - valueOf binary32 b.toNat).natAbs 1 := by
  have hflip : valueOf binary32 a.toNat - valueOf binary32 b.toNat =
      valueOf binary32 a.toNat + valueOf binary32 (b ^^^ 0x80000000#32).toNat := by
    rw [valueOf_flipSign, sub_eq_add_neg]
  rw [hflip] at h ⊢
  exact toNat_add32 ha (by rwa [magOf_flipSign]) ftz d h

/-! ### The conversions of the parameter store -/

theorem storedWide_eq (c : Config) (d : Nat) (r : Wide) (v : Word) :
    storedWide c d r v = if r = .time then widen d v else div64 c.ftz (d + 1) (widen d v) c.pctScale := by
  cases r <;> rfl

theorem returnedWide_eq (c : Config) (d : Nat) (r : Wide) (x : Word64) :
    returnedWide c d r x =
      if r = .time then narrow c.ftz d x else narrow c.ftz (d + 1) (mul64 c.ftz d x c.pctScale) := by
  cases r <;> rfl

/-- Settles O60: each operation rounds the exact result of the values of its finite operands. -/
theorem conversionsAndArithmeticRoundOnce : Obligations.ConversionsAndArithmeticRoundOnce := by
  refine ⟨fun c d v x r => ⟨storedWide_eq c d r v, returnedWide_eq c d r x⟩, fun ftz d a b ha hb => ?_,
    fun ftz d a b ha hb => ?_⟩
  · refine ⟨toNat_mul64 ha hb ftz d, toNat_div64 ha hb ftz d, ?_, toNat_narrow ha ftz d⟩
    rintro _ rfl
    exact toNat_add64 ha hb ftz d
  · refine ⟨toNat_mul32 ha hb ftz d, ?_, ?_, toNat_widen ha d⟩
    · rintro _ rfl
      exact toNat_add32 ha hb ftz d
    · rintro _ rfl
      exact toNat_sub32 ha hb ftz d

end Sys2Proof.Machine
end

section
/-! PROOFS. SETP where its writes are made at once (41_parameter_store.md R131 to R134), and what GETP answers (R132). -/

namespace Sys2Proof.Machine

open Sys2Proof.Claims

/-! ### Flags, addresses and register reads -/

/-- Settles O38: `wordToBool` compares with the two zeros. -/
theorem toBoolIsFalseOnZeros : Obligations.ToBoolIsFalseOnZeros := fun v => by
  simp [wordToBool, or_iff_not_imp_left]

theorem paramAt_of_ge : ∀ {pa : BitVec 4}, 7 ≤ pa.toNat → paramAt pa = none := by decide

/-- The id a fault records of a binary64 register is its address. -/
theorem Wide.id_of_paramAt {r : Wide} : ∀ {pa : BitVec 4}, paramAt pa = some (.wide r) → r.id = pa.setWidth 32 := by
  cases r <;> decide

theorem Reg64.read_unwritten {x : Reg64} (id : Word) (h : ¬bothWritten x) : x.read id = .error (.trap .unwritten id) :=
  if_neg h

theorem Reg32.read_unwritten {x : Reg32} (id : Word) (h : x.written = false) :
    x.read id = .error (.trap .unwritten id) := by simp [Reg32.read, h]

theorem Flag.read_unwritten {x : Flag} (id : Word) (h : x.written = false) :
    x.read id = .error (.trap .unwritten id) := by simp [Flag.read, h]

/-! ### One write event -/

theorem not_pending_of_writesAtOnce {s : State} (h : writesAtOnce s) : ¬(s.port = .c ∧ s.cfg.weakVis = true) := by
  rintro ⟨hp, hw⟩
  rcases h with h | h
  · exact nomatch hp.symm.trans h
  · exact nomatch hw.symm.trans h

theorem writesAtOnce_congr {s t : State} (h : writesAtOnce s) (hp : t.port = s.port) (hc : t.cfg = s.cfg) :
    writesAtOnce t := by
  rwa [writesAtOnce, hp, hc]

theorem issueWrite_atOnce {s : State} (h : writesAtOnce s) (w : RegWrite) : s.issueWrite w = s.applyWrite w :=
  if_neg (not_pending_of_writesAtOnce h)

theorem applyWrite_zeno (s : State) (b : Bool) : s.applyWrite ⟨.zeno, bitWord b⟩ = { s with zeno := ⟨b, true⟩ } := by
  cases b <;> rfl

theorem applyWrite_pingpong (s : State) (b : Bool) :
    s.applyWrite ⟨.pingpong, bitWord b⟩ = { s with pingpong := ⟨b, true⟩ } := by cases b <;> rfl

theorem applyWrite_freq (s : State) (v : Word) : s.applyWrite ⟨.freq, v⟩ = { s with freq := ⟨v, true⟩ } := rfl

/-- A half-write event changes binary64 registers only. -/
theorem applyWrite_of_isHalf {w : RegWrite} (h : w.slot.isHalf = true) (s : State) :
    s.applyWrite w = { s with
      time := s.time.after .time w, dry := s.dry.after .dry w, wet := s.wet.after .wet w
      feedback := s.feedback.after .feedback w } := by
  obtain ⟨slot, v⟩ := w
  cases slot with
  | lo | hi => rfl
  | zeno | pingpong | freq | bypass => cases h

/-- A SETP that is one write event made at once. -/
theorem complete_issueWrite_atOnce {s : State} (h : writesAtOnce s) (w : RegWrite) :
    (s.issueWrite w).complete s.port = completed (s.applyWrite w) := by
  rw [issueWrite_atOnce h]
  rfl

/-- Settles O32: the one write event is applied at once. -/
theorem setpStoresSmallRegisters : Obligations.SetpStoresSmallRegisters := by
  intro v s h
  have event (w : RegWrite) := congrArg (Host.Outcome.next : State → Answer) (complete_issueWrite_atOnce h w)
  refine ⟨(event _).trans ?_, (event _).trans ?_, event _⟩
  · rw [applyWrite_zeno]
    rfl
  · rw [applyWrite_pingpong]
    rfl

/-! ### The two events of a binary64 register -/

/-- `a` and `b` are the two half-write events of `Write64(r, x)`, in either order. -/
def AreHalves (r : Wide) (x : Word64) (a b : RegWrite) : Prop :=
  (a = ⟨.lo r, lowWord x⟩ ∧ b = ⟨.hi r, highWord x⟩) ∨ (a = ⟨.hi r, highWord x⟩ ∧ b = ⟨.lo r, lowWord x⟩)

theorem halvesOf_areHalves (r : Wide) (x : Word64) (n : Nat) : AreHalves r x (halvesOf r x n).1 (halvesOf r x n).2 := by
  unfold halvesOf
  split
  · exact .inr ⟨rfl, rfl⟩
  · exact .inl ⟨rfl, rfl⟩

section halves
variable {r : Wide} {x : Word64} {a b : RegWrite} (h : AreHalves r x a b)
include h

theorem AreHalves.isHalf : a.slot.isHalf = true ∧ b.slot.isHalf = true := by
  rcases h with ⟨rfl, rfl⟩ | ⟨rfl, rfl⟩ <;> exact ⟨rfl, rfl⟩

/-- The half-write events leave the other binary64 registers alone. -/
theorem AreHalves.after_other {q : Wide} (hq : q ≠ r) (y : Reg64) : y.after q a = y ∧ y.after q b = y := by
  rcases h with ⟨rfl, rfl⟩ | ⟨rfl, rfl⟩ <;>
    exact ⟨Reg64.after_other (by simp [hq.symm]) (by simp [hq.symm]),
      Reg64.after_other (by simp [hq.symm]) (by simp [hq.symm])⟩

/-- The register between the events: one half is new and written. -/
theorem AreHalves.after_first (y : Reg64) :
    (y.after r a = { y with lo := lowWord x, loWritten := true } ∧ b = ⟨.hi r, highWord x⟩) ∨
      (y.after r a = { y with hi := highWord x, hiWritten := true } ∧ b = ⟨.lo r, lowWord x⟩) := by
  rcases h with ⟨rfl, rfl⟩ | ⟨rfl, rfl⟩
  · exact .inl ⟨Reg64.after_lo y r _, rfl⟩
  · exact .inr ⟨Reg64.after_hi y r _, rfl⟩

/-- A register that was written is torn between the events. -/
theorem AreHalves.read_torn {y : Reg64} (hy : bothWritten y) (id : Word) :
    (y.after r a).read id = .ok (joinWords (lowWord x) y.hi) ∨ (y.after r a).read id = .ok (joinWords y.lo (highWord x)) := by
  rcases h.after_first y with ⟨hfirst, -⟩ | ⟨hfirst, -⟩ <;> rw [hfirst]
  · exact .inl (Reg64.read_written id rfl hy.2)
  · exact .inr (Reg64.read_written id hy.1 rfl)

/-- After both events the register holds the whole value. -/
theorem AreHalves.read_whole (y : Reg64) (id : Word) : ((y.after r a).after r b).read id = .ok x := by
  rcases h with ⟨rfl, rfl⟩ | ⟨rfl, rfl⟩
  · exact read_after_both_halves y r x id
  · simp [Reg64.after_lo, Reg64.after_hi, Reg64.read, joinWords_parts]

end halves

@[simp] theorem wide_setHalf (s : State) (p : Port) (w : Option RegWrite) (r : Wide) : (s.setHalf p w).wide r = s.wide r := by
  cases r <;> rfl

@[simp] theorem wide_choiceUsed (s : State) (r : Wide) : s.choiceUsed.wide r = s.wide r := by cases r <;> rfl

@[simp] theorem wide_drawn (s : State) (n : Nat) (r : Wide) : (s.drawn n).wide r = s.wide r := by cases r <;> rfl

@[simp] theorem wide_complete (s : State) (p : Port) (r : Wide) : (s.complete p).wide r = s.wide r := by cases r <;> rfl

@[simp] theorem half_setHalf_same (s : State) (p : Port) (w : Option RegWrite) : (s.setHalf p w).half p = w := by
  cases p <;> rfl

theorem setHalf_setHalf (s : State) (p : Port) (v w : Option RegWrite) :
    (s.setHalf p v).setHalf p w = s.setHalf p w := by
  cases p <;> rfl

theorem half_setHalf_other (s : State) {p q : Port} (h : q ≠ p) (w : Option RegWrite) :
    (s.setHalf p w).half q = s.half q := by
  cases q <;> exact if_neg h.symm

@[simp] theorem half_complete (s : State) (p q : Port) : (s.complete p).half q = s.half q := by cases q <;> rfl

@[simp] theorem half_applyWrite (s : State) (w : RegWrite) (q : Port) : (s.applyWrite w).half q = s.half q := by
  cases q <;> rfl

/-- The state after the first event of a SETP of a binary64 register: `a` is applied and `b` is left to the port. -/
def firstEvent (s : State) (a b : RegWrite) : State :=
  ((s.drawn 2).choiceUsed.applyWrite a).setHalf s.port (some b)

theorem execSetp_wide_atOnce {pa : BitVec 4} {r : Wide} {v : Word} {s : State} (hpa : paramAt pa = some (.wide r))
    (h : writesAtOnce s) : ∃ a b, AreHalves r (storedWide s.cfg s.draws r v) a b ∧
      exec (.setp pa v) s = .next (firstEvent s a b) := by
  refine ⟨_, _, halvesOf_areHalves r _ (s.drawn 2).choice, ?_⟩
  rw [execSetp_wide hpa, State.writeWide, if_neg (not_pending_of_writesAtOnce (s := s.drawn 2) (writesAtOnce_congr h rfl rfl))]
  rfl

theorem wide_firstEvent (s : State) (a b : RegWrite) (q : Wide) : (firstEvent s a b).wide q = (s.wide q).after q a := by
  simp [firstEvent]

theorem half_firstEvent (s : State) (a b : RegWrite) : (firstEvent s a b).half s.port = some b := half_setHalf_same _ _ _

theorem half_firstEvent_other {s : State} {p : Port} (hp : p ≠ s.port) (a b : RegWrite) :
    (firstEvent s a b).half p = s.half p := by
  rw [firstEvent, half_setHalf_other _ hp, half_applyWrite]
  cases p <;> rfl

/-- Settles O30: the first event applies the half drawn first and leaves the other to the port. -/
theorem setpWritesOneHalfFirst : Obligations.SetpWritesOneHalfFirst := by
  rintro pa r v x s hpa h rfl
  obtain ⟨a, b, hab, hexec⟩ := execSetp_wide_atOnce hpa h (v := v)
  refine ⟨_, hexec, ?_, fun q hq => ?_, fun p hp => half_firstEvent_other hp a b, ?_⟩
  · simpa only [wide_firstEvent, half_firstEvent, Option.some.injEq] using hab.after_first (s.wide r)
  · rw [wide_firstEvent, (hab.after_other hq _).1]
  · rw [firstEvent, applyWrite_of_isHalf hab.isHalf.1]
    rfl

theorem wide_finishHalf (s : State) (p : Port) (w : RegWrite) (q : Wide) :
    (s.finishHalf p w).wide q = (s.wide q).after q w := by
  simp [State.finishHalf]

theorem AreHalves.read_after_both_events {r : Wide} {x : Word64} {a b : RegWrite} (h : AreHalves r x a b) (s : State)
    (id : Word) : (((firstEvent s a b).finishHalf s.port b).wide r).read id = .ok x := by
  rw [wide_finishHalf, wide_firstEvent]
  exact h.read_whole _ id

/-- Settles O31: the second event applies the other half, and both halves are the whole value. -/
theorem setpBothEventsStoreTheValue : Obligations.SetpBothEventsStoreTheValue := by
  rintro pa r v id x s t hpa h rfl ht
  obtain ⟨a, b, hab, hexec⟩ := execSetp_wide_atOnce hpa h (v := v)
  cases hexec.symm.trans ht
  refine ⟨fun hw => wide_firstEvent s a b r ▸ hab.read_torn hw id, b, half_firstEvent s a b,
    hab.read_after_both_events s id, ?_, ?_, fun q hq => ?_⟩
  · simp [State.finishHalf]
  · rw [State.finishHalf, firstEvent, setHalf_setHalf, applyWrite_of_isHalf hab.isHalf.1,
      applyWrite_of_isHalf hab.isHalf.2]
    rfl
  · rw [wide_finishHalf, wide_firstEvent, (hab.after_other hq _).1, (hab.after_other hq _).2]

/-! ### GETP -/

theorem cfg_getpView (s : State) : s.getpView.cfg = s.cfg := by
  unfold State.getpView
  split
  · exact cfg_foldl_applyWrite _ _
  · rfl

theorem getpView_atOnce {s : State} (h : writesAtOnce s) : s.getpView = s := if_neg (not_pending_of_writesAtOnce h)

theorem execGetp_of_unwritten {pa : BitVec 4} {s : State} {id : Word}
    (h : getpValue s.getpView s.draws pa = .error (.trap .unwritten id)) :
    exec (.getp pa) s = .next (faultedWith s s.port 8 id) := by
  simp only [exec, execGetp, h]
  rfl

section getpValue
variable {view : State} (d : Nat)

theorem getpValue_wide {pa : BitVec 4} {r : Wide} (hpa : paramAt pa = some (.wide r)) :
    getpValue view d pa = (view.wide r).read r.id >>= fun x => .ok (returnedWide view.cfg d r x) := by
  simp only [getpValue, hpa]

theorem getpValue_zeno : getpValue view d 4 = view.zeno.read 4 >>= fun b => .ok (flagValue b) := rfl

theorem getpValue_pingpong : getpValue view d 5 = view.pingpong.read 5 >>= fun b => .ok (flagValue b) := rfl

theorem getpValue_freq : getpValue view d 6 = view.freq.read 6 := rfl

end getpValue

/-- Settles O35: GETP answers what the read of its view gives, or faults where the read does. -/
theorem getpAnswersOrFaults : Obligations.GetpAnswersOrFaults := by
  rintro s x hx
  obtain rfl : x = s.getpView := hx
  refine ⟨fun pa r hpa => ⟨fun hw => ?_, fun hw => ?_⟩, fun hw => ?_, fun hw => ?_, fun hw => ?_, fun hw => ?_,
    fun hw => ?_, fun hw => ?_⟩
  · rw [← cfg_getpView s]
    exact execGetp_of_value (by rw [getpValue_wide _ hpa, Reg64.read_written _ hw.1 hw.2]; rfl)
  · exact execGetp_of_unwritten (by rw [getpValue_wide _ hpa, Reg64.read_unwritten _ hw, Wide.id_of_paramAt hpa]; rfl)
  · exact execGetp_of_value (by rw [getpValue_zeno, Flag.read_written _ hw]; rfl)
  · exact execGetp_of_unwritten (by rw [getpValue_zeno, Flag.read_unwritten _ hw]; rfl)
  · exact execGetp_of_value (by rw [getpValue_pingpong, Flag.read_written _ hw]; rfl)
  · exact execGetp_of_unwritten (by rw [getpValue_pingpong, Flag.read_unwritten _ hw]; rfl)
  · exact execGetp_of_value (by rw [getpValue_freq, Reg32.read_written _ hw])
  · exact execGetp_of_unwritten (by rw [getpValue_freq, Reg32.read_unwritten _ hw])

/-- Settles O34: no register is at the address. -/
theorem unknownAddressesAreSilent : Obligations.UnknownAddressesAreSilent := by
  intro pa v s h
  have hpa := paramAt_of_ge h
  constructor
  · simp only [exec, execSetp, hpa]
    rfl
  · exact execGetp_of_value (by simp only [getpValue, hpa])

/-! ### SETP then GETP -/

/-- GETP where the registers are seen as they stand. -/
theorem execGetp_atOnce {pa : BitVec 4} {s : State} {v : Word} (h : writesAtOnce s)
    (hv : getpValue s s.draws pa = .ok v) : exec (.getp pa) s = .next { answered s v with draws := s.draws + 2 } :=
  execGetp_of_value (by rwa [getpView_atOnce h])

theorem execGetp_wide_atOnce {pa : BitVec 4} {r : Wide} {s : State} {x : Word64} (hpa : paramAt pa = some (.wide r))
    (h : writesAtOnce s) (hx : (s.wide r).read r.id = .ok x) :
    exec (.getp pa) s = .next { answered s (returnedWide s.cfg s.draws r x) with draws := s.draws + 2 } :=
  execGetp_atOnce h (by rw [getpValue_wide _ hpa, hx]; rfl)

/-- SETP of a binary64 register, its second event, and GETP: what is stored is read back and converted. -/
theorem execGetp_wide_after_setp {pa : BitVec 4} {r : Wide} {v : Word} {w : RegWrite} {s t : State}
    (hpa : paramAt pa = some (.wide r)) (h : writesAtOnce s) (ht : exec (.setp pa v) s = .next t)
    (hw : t.half s.port = some w) :
    (∀ id, ((t.finishHalf s.port w).wide r).read id = .ok (storedWide s.cfg s.draws r v)) ∧
      exec (.getp pa) (t.finishHalf s.port w) = .next { answered (t.finishHalf s.port w)
        (returnedWide s.cfg t.draws r (storedWide s.cfg s.draws r v)) with draws := t.draws + 2 } := by
  obtain ⟨a, b, hab, hexec⟩ := execSetp_wide_atOnce hpa h (v := v)
  cases hexec.symm.trans ht
  obtain rfl : b = w := Option.some.inj ((half_firstEvent s a b).symm.trans hw)
  have hread := hab.read_after_both_events s
  have hcfg : ((firstEvent s a b).finishHalf s.port b).cfg = s.cfg := by simp [State.finishHalf, firstEvent]
  have hport : ((firstEvent s a b).finishHalf s.port b).port = s.port := by simp [State.finishHalf, firstEvent]
  have hget := execGetp_wide_atOnce hpa (writesAtOnce_congr h hport hcfg) (hread r.id)
  rw [hcfg] at hget
  exact ⟨hread, hget⟩

/-- A NaN narrows to a NaN. -/
theorem narrow_isNaN (ftz : Bool) (d : Nat) {x : Word64} (h : isNaN64 x = true) : isNaN32 (narrow ftz d x) = true := by
  have hnan : datum64 x = .nan := isNaN64_iff.1 h
  rw [narrow, hnan]
  exact asNan32_isNaN _

/-- A NaN widens to a NaN. -/
theorem widen_isNaN (d : Nat) {v : Word} (h : isNaN32 v = true) : isNaN64 (widen d v) = true := by
  have hnan : datum32 v = .nan := isNaN32_iff.1 h
  rw [widen, hnan]
  exact nan64_isNaN _

/-- The percentages 0, 50 and 100 with what SETP stores for them (41_parameter_store.md R137, V2). -/
def exactPercentages : List (Word × Word64) :=
  [(0, 0), (0x42480000, 0x3FE0000000000000), (0x42C80000, 0x3FF0000000000000)]

/-- None of the four operations on an exact percentage is a NaN, so none depends on a draw. -/
theorem exactPercentages_results : ∀ p ∈ exactPercentages, ∃ w : Word64, ∀ ftz,
    binary64.convert binary32 false (datum32 p.1) = some w.toNat ∧
    binary64.quotient ftz (datum64 w) (datum64 0x4059000000000000) = some p.2.toNat ∧
    binary64.product ftz (datum64 p.2) (datum64 0x4059000000000000) = some w.toNat ∧
    binary32.convert binary64 ftz (datum64 w) = some p.1.toNat := by
  intro p hp
  simp only [exactPercentages, List.mem_cons, List.not_mem_nil, or_false] at hp
  rcases hp with rfl | rfl | rfl
  · exact ⟨0, by decide +kernel⟩
  · exact ⟨0x4049000000000000, by decide +kernel⟩
  · exact ⟨0x4059000000000000, by decide +kernel⟩

theorem exactPercentage_stored_and_returned (ftz : Bool) (d d' e e' : Nat) {v : Word} {q : Word64}
    (h : (v, q) ∈ exactPercentages) :
    div64 ftz d' (widen d v) 0x4059000000000000 = q ∧ narrow ftz e' (mul64 ftz e q 0x4059000000000000) = v := by
  obtain ⟨w, hw⟩ := exactPercentages_results _ h
  obtain ⟨hwiden, hdiv, hmul, hnarrow⟩ := hw ftz
  constructor
  · rw [widen, hwiden, result64, BitVec.ofNat_toNat, BitVec.setWidth_eq, div64, hdiv, result64, BitVec.ofNat_toNat,
      BitVec.setWidth_eq]
  · rw [mul64, hmul, result64, BitVec.ofNat_toNat, BitVec.setWidth_eq, narrow, hnarrow, result32, BitVec.ofNat_toNat,
      BitVec.setWidth_eq]

/-- A flag set from 0.0 or 1.0 is returned as it was given. -/
theorem flagValue_wordToBool {v : Word} (h : v = 0 ∨ v = 0x3F800000) : flagValue (wordToBool v) = v := by
  rcases h with rfl | rfl <;> decide

/-- Settles O40: GETP converts back what SETP stored. -/
theorem setpThenGetpReturnsTheValue : Obligations.SetpThenGetpReturnsTheValue := by
  intro v s t h
  obtain ⟨hzeno, hpingpong, hfreq⟩ := setpStoresSmallRegisters v s h
  refine ⟨fun ht => ?_, fun ht w hw => ?_, fun pa r w x hpa hr ht hw hx => ?_, fun hv => ⟨fun ht => ?_, fun ht => ?_⟩⟩
  · cases hfreq.symm.trans ht
    exact execGetp_atOnce (writesAtOnce_congr h rfl rfl) rfl
  · obtain ⟨-, hget⟩ := execGetp_wide_after_setp (r := .time) rfl h ht hw
    refine ⟨_, hget, fun hv hftz => ?_, fun hv => narrow_isNaN _ _ (widen_isNaN _ hv)⟩
    rw [returnedWide, storedWide, hftz]
    exact wideningIsExact _ _ v hv
  · obtain ⟨hread, hget⟩ := execGetp_wide_after_setp hpa h ht hw
    rw [storedWide_eq, if_neg hr, ← hx] at hread hget
    rw [returnedWide_eq, if_neg hr] at hget
    refine ⟨hread 0, hget, fun q hq hscale => ?_⟩
    obtain ⟨hstored, hreturned⟩ := exactPercentage_stored_and_returned s.cfg.ftz s.draws (s.draws + 1) t.draws
      (t.draws + 1) hq
    rw [hscale] at hx ⊢
    obtain rfl : x = q := hx.trans hstored
    exact ⟨rfl, hreturned⟩
  · cases hzeno.symm.trans ht
    exact execGetp_atOnce (writesAtOnce_congr h rfl rfl) (congrArg Except.ok (flagValue_wordToBool hv))
  · cases hpingpong.symm.trans ht
    exact execGetp_atOnce (writesAtOnce_congr h rfl rfl) (congrArg Except.ok (flagValue_wordToBool hv))

end Sys2Proof.Machine
end

section
/-! PROOFS. The Zeno offsets and the history of a delay line (42_delay_line.md R151 to R157). -/

namespace Sys2Proof.Machine

/-- The offsets halve as long as `2 ^ k` does not exceed the base delay. -/
theorem zenoOffsets_eq_map {fuel d : Nat} (h : ∀ k < fuel, 2 ^ k ≤ d) :
    zenoOffsets fuel d = (List.range fuel).map (fun k => d / 2 ^ k) := by
  induction fuel generalizing d with
  | zero => rfl
  | succ fuel ih =>
    have hd : d ≠ 0 := Nat.one_le_iff_ne_zero.1 (h 0 fuel.succ_pos)
    have hhalf : ∀ k < fuel, 2 ^ k ≤ d / 2 := fun k hk =>
      (Nat.le_div_iff_mul_le Nat.two_pos).2 (h (k + 1) (Nat.succ_lt_succ hk))
    rw [zenoOffsets, if_neg hd, ih hhalf]
    simp [List.range_succ_eq_map, Nat.div_div_eq_div_mul, Nat.pow_succ']

/-- Settles O56: up to `floor(log2 d)` the powers of two do not exceed `d`. -/
theorem zenoTapsHalve : Obligations.ZenoTapsHalve := by
  intro d hd
  have hpow : ∀ k < Nat.log2 d + 1, 2 ^ k ≤ d := fun k hk =>
    (Nat.le_log2 (Nat.one_le_iff_ne_zero.1 hd)).1 (Nat.le_of_lt_succ hk)
  exact ⟨zenoOffsets_eq_map hpow, zenoOffsets_bounds _ d⟩

/-- DL_ADVANCE moves the cursor of an allocated line by one, with the wrap at `CAP` (R153). -/
theorem State.Inv.cursor_dlAdvance {s : State} (h : s.Inv) {ch : Nat} (hch : ch < s.nch.toNat) :
    (dlAdvance s ch).cursor ch = (s.cursor ch + 1) % s.cap := by
  have hlen : ch < s.wi.length := h.cursorCount ▸ hch
  simp [State.cursor, hlen]

/-- At offset 0 the tap index would be the cursor's own (R151). -/
theorem State.Inv.tapIndex_zero {s : State} (h : s.Inv) {ch : Nat} (hch : ch < s.nch.toNat) :
    s.tapIndex ch 0 = s.lineIndex ch (s.cursor ch) := by
  rw [State.tapIndex, Nat.sub_zero, Nat.add_mod_right, Nat.mod_eq_of_lt (h.cursor_lt hch)]

/-- The advance moves every tap one offset further away, with or without a wrap of the cursor (R153). -/
theorem State.Inv.tapIndex_dlAdvance {s : State} (h : s.Inv) {ch off : Nat} (hch : ch < s.nch.toNat)
    (hoff : off < s.cap) : (dlAdvance s ch).tapIndex ch (off + 1) = s.tapIndex ch off := by
  have hcur := h.cursor_lt hch
  have hpos : ((s.cursor ch + 1) % s.cap + s.cap - (off + 1)) % s.cap = (s.cursor ch + s.cap - off) % s.cap := by
    rcases (show s.cursor ch + 1 < s.cap ∨ s.cursor ch + 1 = s.cap by omega) with hlt | hwrap
    · rw [Nat.mod_eq_of_lt hlt, Nat.add_right_comm, Nat.add_sub_add_right]
    · rw [hwrap, Nat.mod_self]
      have hlast : s.cursor ch + s.cap - off = s.cap + (0 + s.cap - (off + 1)) := by omega
      rw [hlast, Nat.add_mod_left]
  rw [State.tapIndex, h.cursor_dlAdvance hch, State.cap_dlAdvance, hpos]
  rfl

/-- No tap of `[1, CAP − 1]` stands at the cursor (R151). -/
theorem State.Inv.tapIndex_ne_cursor {s : State} (h : s.Inv) {ch off : Nat} (hch : ch < s.nch.toNat) (hlo : 1 ≤ off)
    (hhi : off < s.cap) : s.tapIndex ch off ≠ s.lineIndex ch (s.cursor ch) := by
  have hcur := h.cursor_lt hch
  have hpos : (s.cursor ch + s.cap - off) % s.cap ≠ s.cursor ch := by
    rcases Nat.lt_or_ge (s.cursor ch) off with hlt | hge
    · rw [Nat.mod_eq_of_lt (by omega)]
      omega
    · have hback : s.cursor ch + s.cap - off = (s.cursor ch - off) + s.cap := by omega
      rw [hback, Nat.add_mod_right, Nat.mod_eq_of_lt (by omega)]
      omega
  exact fun heq => hpos (Nat.add_left_cancel heq)

/-- A write at the cursor keeps the invariant. -/
theorem dlWrite_inv {s t : State} {ch : Nat} {v : Word} (h : s.Inv) (hw : dlWrite s ch v = .ok t) : t.Inv := by
  obtain ⟨-, hidx, rfl⟩ := dlWrite_ok hw
  exact { writeSamples_inv h hidx v 0 0 with outForm := h.outForm }

/-- An advance brings the tap at `off + 1` to the word that stood at `off` (R155). -/
theorem State.Inv.dlRead_dlAdvance {s : State} (h : s.Inv) {ch off : Nat} (hch : ch < s.nch.toNat)
    (hoff : off < s.cap) : dlRead (dlAdvance s ch) ch (off + 1) = .ok (s.dlm.read (s.tapIndex ch off)) := by
  have hadv : (dlAdvance s ch).Inv := dlAdvance_inv h (Nat.zero_lt_of_lt hoff) ch
  rw [hadv.dlRead_eq hch (Nat.succ_pos off) hoff, h.tapIndex_dlAdvance hch hoff, State.dlm_dlAdvance]

/-- A write changes no tap of `[1, CAP − 1]` (R156). -/
theorem State.Inv.dlRead_dlWrite {s t : State} {ch off : Nat} {v : Word} (h : s.Inv) (hw : dlWrite s ch v = .ok t)
    (hlo : 1 ≤ off) (hhi : off < s.cap) : dlRead t ch off = dlRead s ch off := by
  have ht := dlWrite_inv h hw
  obtain ⟨hch, -, rfl⟩ := dlWrite_ok hw
  rw [ht.dlRead_eq hch hlo hhi.le, h.dlRead_eq hch hlo hhi.le]
  exact congrArg Except.ok (Memory.read_write_other _ _ _ v (h.tapIndex_ne_cursor hch hlo hhi))

/-- What was written stands at the cursor (R152). -/
theorem State.Inv.read_cursor_dlWrite {s t : State} {ch : Nat} {v : Word} (h : s.Inv) (hw : dlWrite s ch v = .ok t) :
    t.dlm.read (t.lineIndex ch (t.cursor ch)) = v := by
  obtain ⟨-, -, rfl⟩ := dlWrite_ok hw
  exact Memory.read_write_same _ _ v h.dlmForm

/-- Settles O57: the advance shifts every tap by one offset, the first of them from the cursor, where alone the write
stored. -/
theorem delayHistoryShifts : Obligations.DelayHistoryShifts := by
  intro s t ch v h hinit hw
  have hcap := h.capacity hinit
  have ht := dlWrite_inv h hw
  obtain ⟨hch, -, rfl⟩ := dlWrite_ok hw
  refine ⟨?_, fun off hlo hhi => ?_, fun off hlo hhi => h.dlRead_dlWrite hw hlo (by omega)⟩
  · rw [ht.dlRead_dlAdvance hch (Nat.zero_lt_of_lt hcap), ht.tapIndex_zero hch, h.read_cursor_dlWrite hw]
  · rw [ht.dlRead_dlAdvance hch hhi, ← ht.dlRead_eq hch hlo (Nat.le_of_succ_le hhi), h.dlRead_dlWrite hw hlo hhi]

end Sys2Proof.Machine
end

section
/-! PROOFS. The oscillator's sine and the pan gains (43_oscillator.md R172, R175, R176, R178). -/

namespace Sys2Proof.Machine

open Sys2Proof.Claims

/-! ### Rounding and values within a bound -/

theorem Format.roundMag_le_unboundedMag (f : Format) (ftz : Bool) (num den : Nat) :
    f.roundMag ftz num den ≤ f.unboundedMag num den := by
  simp only [Format.roundMag, Format.unboundedMag, Format.roundShift]
  split_ifs <;> omega

/-- Rounding keeps a bound that the format has: a magnitude beyond it would lie further off than the bound itself. -/
theorem Format.roundMag_le_of_le (f : Format) (hf : f.frac ≠ 0) (ftz : Bool) {num den mag : Nat} (hden : 0 < den)
    (h : num ≤ unitsOf f mag * den) : f.roundMag ftz num den ≤ mag := by
  refine (f.roundMag_le_unboundedMag ftz num den).trans (not_lt.1 fun hlt => ?_)
  have hnear := (f.unboundedMag_nearest hf hden (num := num) mag).1
  have hbeyond : unitsOf f mag * den < unitsOf f (f.unboundedMag num den) * den :=
    Nat.mul_lt_mul_of_pos_right (unitsOf_strictMono f hlt) hden
  simp only [distance] at hnear
  omega

theorem rounded_false (f : Format) (ftz : Bool) (num den : Nat) : rounded f ftz false num den = f.roundMag ftz num den := by
  simp [rounded]

theorem natAbs_valueOf (f : Format) (bits : Nat) : (valueOf f bits).natAbs = unitsOf f (magOf f bits) := by
  rw [valueOf]
  split <;> simp

theorem unitsOf_one : unitsOf binary32 0x3F800000 = 2 ^ 149 := by decide +kernel

theorem unitsOf_two : unitsOf binary32 0x40000000 = 2 * 2 ^ 149 := by decide +kernel

theorem unitsOf_half : unitsOf binary32 0x3F000000 = 2 ^ 148 := by decide +kernel

/-! ### The gains (43_oscillator.md R175) -/

/-- 1.0 and a value of `[−1, 1]` have a rounded sum in `[0, 2]`; the zero sum is `+0.0`, for 1.0 is not negative. -/
theorem one_add32_le_two (ftz : Bool) (d : Nat) {b : Word} (hb : magOf binary32 b.toNat ≤ 0x3F800000) :
    (add32 ftz d 0x3F800000 b).toNat ≤ 0x40000000 := by
  have hbfin : magOf binary32 b.toNat < binary32.infBits := hb.trans_lt (by decide)
  have hone : valueOf binary32 (0x3F800000 : Word).toNat = 2 ^ 149 := by decide +kernel
  have hle : (valueOf binary32 b.toNat).natAbs ≤ 2 ^ 149 := by
    rw [natAbs_valueOf, ← unitsOf_one]
    exact (unitsOf_strictMono binary32).monotone hb
  by_cases hz : valueOf binary32 (0x3F800000 : Word).toNat + valueOf binary32 b.toNat = 0
  · have hsum : binary32.sum ftz (datum32 0x3F800000) (datum32 b) = some 0 := by
      rw [datum32_of_finite (a := 0x3F800000) (by decide), datum32_of_finite hbfin]
      exact if_pos hz
    rw [add32, hsum]
    exact Nat.zero_le _
  · have hsign : ¬valueOf binary32 (0x3F800000 : Word).toNat + valueOf binary32 b.toNat < 0 := by omega
    rw [toNat_add32 (by decide) hbfin ftz d hz, decide_eq_false hsign, rounded_false]
    refine binary32.roundMag_le_of_le (by decide) ftz one_pos ?_
    rw [unitsOf_two]
    omega

/-- Half of a value in `[0, 2]` is rounded to one in `[0, 1]`. -/
theorem mul32_half_le_one (ftz : Bool) (d : Nat) {a : Word} (ha : a.toNat ≤ 0x40000000) :
    (mul32 ftz d a 0x3F000000).toNat ≤ 0x3F800000 := by
  have hlt : a.toNat < 2 ^ (binary32.expo + binary32.frac) := ha.trans_lt (by decide)
  have hmag : magOf binary32 a.toNat = a.toNat := Nat.mod_eq_of_lt hlt
  have hfin : magOf binary32 a.toNat < binary32.infBits := by
    rw [hmag]
    exact ha.trans_lt (by decide)
  have hsign : negative binary32 a.toNat = false := by simp [negative, Nat.div_eq_of_lt hlt]
  have hunits : unitsOf binary32 a.toNat ≤ 2 * 2 ^ 149 := unitsOf_two ▸ (unitsOf_strictMono binary32).monotone ha
  rw [toNat_mul32 hfin (by decide), hmag, hsign,
    show (false ^^ negative binary32 (0x3F000000 : Word).toNat) = false by decide, rounded_false]
  refine binary32.roundMag_le_of_le (by decide) ftz (by positivity) ?_
  rw [show magOf binary32 (0x3F000000 : Word).toNat = 0x3F000000 by decide, unitsOf_half, unitsOf_one]
  omega

/-- Settles O44: both gains are half of a sum of 1.0 and a value of `[−1, 1]`; the left one's has the pan's sign turned. -/
theorem gainsStayInUnitRange : Obligations.GainsStayInUnitRange := by
  intro c d pan hhalf hpan
  rw [leftGain, rightGain, hhalf]
  exact ⟨mul32_half_le_one _ _ (one_add32_le_two _ _ (by rwa [magOf_flipSign])),
    mul32_half_le_one _ _ (one_add32_le_two _ _ hpan)⟩

/-! ### The sine (43_oscillator.md R172) -/

theorem isNaN32_eq_false_iff {x : Word} : isNaN32 x = false ↔ x.toNat % 2 ^ 31 ≤ 0x7F800000 := by
  rw [← Bool.not_eq_true, isNaN32_iff, binary32.datum_eq_nan_iff_lt, not_lt]
  rfl

theorem Format.mag_lt_infBits_of_datum_fin {f : Format} {bits n : Nat} {neg : Bool} (h : f.datum bits = .fin neg n) :
    bits % f.signBit < f.infBits := by
  simp only [Format.datum] at h
  split_ifs at h <;> omega

theorem withinUnit_mag_le (y : Word) : (withinUnit y).toNat % 2 ^ 31 ≤ 0x3F800000 := by
  rw [withinUnit]
  split
  case isTrue h => exact h
  case isFalse => decide

theorem sineOf_zero (u : SineUnit) : sineOf u 0 = 0 := rfl

theorem sineOf_mag_le_of_finite (u : SineUnit) {x : Word} (h : x.toNat % 2 ^ 31 < 0x7F800000) :
    (sineOf u x).toNat % 2 ^ 31 ≤ 0x3F800000 := by
  rw [sineOf, datum32_of_finite h]
  dsimp only
  split
  · decide
  · exact withinUnit_mag_le _

theorem sineOf_isNaN_of_not_finite (u : SineUnit) {x : Word} (h : 0x7F800000 ≤ x.toNat % 2 ^ 31) :
    isNaN32 (sineOf u x) = true := by
  rw [sineOf]
  split
  case h_1 => exact asNan32_isNaN _
  case h_2 => exact asNan32_isNaN _
  case h_3 hfin => exact absurd (Format.mag_lt_infBits_of_datum_fin hfin) (not_lt.2 h)

/-- Settles O43: the sine of a finite argument passes `withinUnit`, that of any other is a drawn NaN. -/
theorem sineHasTheStatedProperties : Obligations.SineHasTheStatedProperties := by
  intro u x
  refine ⟨sineOf_zero u, fun hfin => ?_, sineOf_isNaN_of_not_finite u⟩
  have hmag := sineOf_mag_le_of_finite u hfin
  exact ⟨isNaN32_eq_false_iff.2 (hmag.trans (by decide)), hmag⟩

/-! ### The gain in the mix (43_oscillator.md R176) -/

/-- Settles O55, by the cases of `State.mixGain`. -/
theorem mixGainFollowsThePan : Obligations.MixGainFollowsThePan := by
  intro s ch
  refine ⟨fun hact hch => ?_, fun hact hch => ?_, fun hact => ?_⟩
  · rw [State.mixGain, if_pos hact, if_pos hch]
  · rw [State.mixGain, if_pos hact, if_neg hch]
  · rw [State.mixGain, if_neg (Bool.eq_false_iff.1 hact)]

end Sys2Proof.Machine
end

section
/-! PROOFS. FRAME_BEGIN and CHSTEP (44_render.md R194 to R203): what each answers with its registers written, its fault
when one is not, and the registers no micro-step writes. -/

namespace Sys2Proof.Machine

open Sys2Proof.Claims

/-- What a read gives after a write. -/
theorem Memory.read_write {m : Memory} (h : m.wf) (a b : Nat) (v : Word) :
    (m.write b v).read a = if a = b then v else m.read a := by
  split
  · subst a
    exact m.read_write_same b v h
  · exact m.read_write_other b a v ‹_›

theorem ok_bind {α β : Type} (a : α) (f : α → Except Raise β) : (Except.ok a >>= f) = f a := rfl

theorem error_bind {α β : Type} (e : Raise) (f : α → Except Raise β) : (Except.error e >>= f) = Except.error e := rfl

/-! ### FRAME_BEGIN (44_render.md R194) -/

theorem microStep_frame {s : State} {i : Nat} (hseq : s.seq = .frame i) :
    microStep s = settle .r s (frameBegin i s) := by simp only [microStep, hseq]

theorem frameBegin_of_pingpong_unwritten {s : State} (h : s.pingpong.written = false) (i : Nat) :
    frameBegin i s = .error (.trap .unwritten 5) := by
  rw [frameBegin, Flag.read_unwritten 5 h, error_bind]

/-- An active frame reads `FREQ` next (43_oscillator.md R171). -/
theorem frameBegin_of_freq_unwritten {s : State} (hw : s.pingpong.written = true)
    (ha : pingpongActive s.pingpong.val s.pnch = true) (hf : s.freq.written = false) (i : Nat) :
    frameBegin i s = .error (.trap .unwritten 6) := by
  rw [frameBegin, Flag.read_written 5 hw, ok_bind, if_pos ha, Reg32.read_unwritten 6 hf, error_bind]

theorem frameBegin_active {s : State} (hw : s.pingpong.written = true)
    (ha : pingpongActive s.pingpong.val s.pnch = true) (hf : s.freq.written = true) (i : Nat) :
    frameBegin i s = .ok (({ s with
      active := true
      phase := oscAdvance s.cfg (s.draws + 4) s.phase (oscInc s.cfg s.draws s.freq.val s.sr)
      gl := leftGain s.cfg (s.draws + 6) (oscPan s.cfg s.phase)
      gr := rightGain s.cfg (s.draws + 8) (oscPan s.cfg s.phase) }.drawn 10).goto (.chan i 0)) := by
  have hch : 0 < s.pnch.toNat := Nat.lt_of_lt_of_le two_pos ((pingpongActive_iff _ _).1 ha).2
  rw [frameBegin, Flag.read_written 5 hw, ok_bind, if_pos ha, Reg32.read_written 6 hf, ok_bind, if_pos hch]

theorem frameBegin_inactive {s : State} (hw : s.pingpong.written = true)
    (ha : pingpongActive s.pingpong.val s.pnch = false) (i : Nat) :
    frameBegin i s = .ok ({ s with active := false, gl := 0x3F000000, gr := 0x3F000000 }.goto
      (if 0 < s.pnch.toNat then .chan i 0 else s.afterFrame i)) := by
  rw [frameBegin, Flag.read_written 5 hw, ok_bind, if_neg (Bool.eq_false_iff.1 ha)]

/-- Settles O50: the gains are `GAINS` of the phase before the advance, and a frame with two channels has a first one. -/
theorem activeFrameAdvancesTheOscillator : Obligations.ActiveFrameAdvancesTheOscillator := by
  rintro i s _ _ _ hseq hw hv hch hf rfl rfl rfl
  have ha : pingpongActive s.pingpong.val s.pnch = true := (pingpongActive_iff _ _).2 ⟨hv, hch⟩
  rw [microStep_frame hseq, frameBegin_active hw ha hf, settle_ok]
  rfl

/-- Settles O51, by the end of an inactive FRAME_BEGIN. -/
theorem inactiveFrameLeavesTheOscillator : Obligations.InactiveFrameLeavesTheOscillator := by
  intro i s hseq hw hoff
  have ha : pingpongActive s.pingpong.val s.pnch = false := by
    rw [← Bool.not_eq_true, pingpongActive_iff]
    rcases hoff with hv | hch
    · simp [hv]
    · exact fun h => absurd h.2 (not_le.2 hch)
  refine ⟨_, rfl, ?_⟩
  rw [microStep_frame hseq, frameBegin_inactive hw ha, settle_ok]
  rfl

/-! ### CHSTEP (44_render.md R195 to R202) -/

theorem microStep_chan {s : State} {i ch : Nat} (hseq : s.seq = .chan i ch) :
    microStep s = settle .r s (chStep i ch s) := by simp only [microStep, hseq]

theorem unwritten_half_iff {x : Reg64} : (x.loWritten = false ∨ x.hiWritten = false) ↔ ¬bothWritten x := by
  simp [bothWritten, Decidable.imp_iff_not_or]

/-- `FEEDBACK` is read only where the standard algorithm runs (44_render.md R195). -/
theorem feedbackFor_ok {s : State} {z : Bool}
    (h : ¬(z = false ∧ (s.feedback.loWritten = false ∨ s.feedback.hiWritten = false))) :
    ∃ fb, s.feedbackFor z = .ok fb := by
  cases z with
  | true => exact ⟨0, rfl⟩
  | false =>
    obtain ⟨hl, hh⟩ : bothWritten s.feedback := not_not.1 fun hw => h ⟨rfl, unwritten_half_iff.2 hw⟩
    exact ⟨_, Reg64.read_written 3 hl hh⟩

/-- Settles O52: the register reads stand at the head of both micro-steps, in this order. -/
theorem blockMicroStepsFaultInOrder : Obligations.BlockMicroStepsFaultInOrder := by
  refine fun s => ⟨fun i hseq => ⟨fun hw => ?_, fun hw hv hch hf => ?_⟩, fun i ch id hseq h => ?_⟩
  · rw [microStep_frame hseq, frameBegin_of_pingpong_unwritten hw]
    rfl
  · rw [microStep_frame hseq, frameBegin_of_freq_unwritten hw ((pingpongActive_iff _ _).2 ⟨hv, hch⟩) hf]
    rfl
  · rw [microStep_chan hseq, chStep]
    split at h
    case isTrue hz =>
      cases h
      rw [Flag.read_unwritten 4 hz]
      rfl
    case isFalse hz =>
    rw [Flag.read_written 4 (Bool.eq_true_of_not_eq_false hz), ok_bind]
    split at h
    case isTrue hfb =>
      cases h
      rw [hfb.1, show s.feedbackFor false = _ from Reg64.read_unwritten 3 (unwritten_half_iff.1 hfb.2)]
      rfl
    case isFalse hfb =>
    obtain ⟨fb, hread⟩ := feedbackFor_ok hfb
    rw [hread, ok_bind]
    split at h
    case isTrue hdry =>
      cases h
      rw [Reg64.read_unwritten 1 (unwritten_half_iff.1 hdry)]
      rfl
    case isFalse hdry =>
    obtain ⟨hl, hh⟩ := not_not.1 (mt unwritten_half_iff.2 hdry)
    rw [Reg64.read_written 1 hl hh, ok_bind]
    split at h <;> cases h
    case isTrue hwet =>
    rw [Reg64.read_unwritten 2 (unwritten_half_iff.1 hwet)]
    rfl

/-- The taps of the offsets in `[1, CAP]` are read one by one (44_render.md R197). -/
theorem State.Inv.zenoEcho_cons {s : State} (h : s.Inv) {ch off : Nat} (hch : ch < s.nch.toNat) (hlo : 1 ≤ off)
    (hhi : off ≤ s.cap) (offs : List Nat) (d : Nat) (g echo : Word) :
    zenoEcho s ch (off :: offs) d g echo =
      zenoEcho s ch offs (d + 3) (mul32 s.cfg.ftz (d + 2) g s.cfg.zenoDecay)
        (add32 s.cfg.ftz (d + 1) echo (mul32 s.cfg.ftz d (s.dlm.read (s.tapIndex ch off)) g)) := by
  rw [zenoEcho, h.dlRead_eq hch hlo hhi, ok_bind]

/-- A sum over offsets in `[1, CAP]` has a value. -/
theorem State.Inv.zenoEcho_ok {s : State} (h : s.Inv) {ch : Nat} (hch : ch < s.nch.toNat) {offs : List Nat}
    (hoffs : ∀ off ∈ offs, 1 ≤ off ∧ off ≤ s.cap) (d : Nat) (g echo : Word) : ∃ e, zenoEcho s ch offs d g echo = .ok e := by
  induction offs generalizing d g echo with
  | nil => exact ⟨echo, rfl⟩
  | cons off offs ih =>
    obtain ⟨hlo, hhi⟩ := hoffs off (by simp)
    rw [h.zenoEcho_cons hch hlo hhi]
    exact ih (fun o ho => hoffs o (List.mem_cons_of_mem _ ho)) _ _ _

/-- At CHSTEP(i, ch) the tap sum of the base delay has a value (44_render.md R197). -/
theorem State.Inv.zenoEcho_taps_ok {s : State} (h : s.Inv) {i ch : Nat} (hseq : s.seq = .chan i ch) (d : Nat)
    (g echo : Word) : ∃ e, zenoEcho s ch (zenoTaps s.baseD) d g echo = .ok e := by
  obtain ⟨hch, -, hhi⟩ := h.chan_fits hseq
  exact h.zenoEcho_ok hch (fun off ho => (zenoOffsets_bounds _ _ off ho).imp_right (·.trans hhi)) d g echo

theorem zenoPath_eq {s : State} {d ch : Nat} {echo : Word}
    (h : zenoEcho s ch (zenoTaps s.baseD) (d + 5) s.cfg.zenoG0 0 = .ok echo) (input : Word) :
    zenoPath s d ch input = .ok ⟨echo, zenoWrite s.cfg d input echo⟩ := by
  rw [zenoPath, h, ok_bind]

theorem State.Inv.standardPath_eq {s : State} (h : s.Inv) {i ch : Nat} (hseq : s.seq = .chan i ch) (d : Nat)
    (input : Word) (fb : Word64) : standardPath s d ch input fb =
      .ok ⟨s.dlm.read (s.tapIndex ch s.baseD), standardWrite s.cfg d input (s.dlm.read (s.tapIndex ch s.baseD)) fb⟩ := by
  obtain ⟨hch, hlo, hhi⟩ := h.chan_fits hseq
  rw [standardPath, h.dlRead_eq hch hlo hhi, ok_bind]

/-- The state after CHSTEP(i, ch) has written `wv` into the delay line and `out` into `OUT`. -/
def State.channelDone (s : State) (i ch : Nat) (wv out : Word) : State :=
  ((dlAdvance { s with
      dlm := s.dlm.write (s.lineIndex ch (s.cursor ch)) wv
      outBuf := s.outBuf.write (sampleIndex ch i) out } ch).drawn
    (13 + 3 * (zenoTaps s.baseD).length)).goto (s.afterChannel i ch)

/-- CHSTEP ends ordinarily when its registers are written and its delay algorithm has a result. -/
theorem State.Inv.chStep_eq {s : State} (h : s.Inv) {i ch : Nat} (hseq : s.seq = .chan i ch) {z : Bool} {fb : Word64}
    {res : DelayResult} (hz : s.zeno.written = true) (hv : s.zeno.val = z) (hfb : s.feedbackFor z = .ok fb)
    (hdry : bothWritten s.dry) (hwet : bothWritten s.wet)
    (hres : delayPath s (s.draws + 8) ch z (s.inBuf.read (sampleIndex ch i)) fb = .ok res) :
    chStep i ch s = .ok (s.channelDone i ch res.write
      (mixed s (s.inBuf.read (sampleIndex ch i)) res.dOut (s.mixGain ch))) := by
  subst hv
  rw [chStep, Flag.read_written 4 hz, ok_bind, hfb, ok_bind, Reg64.read_written 1 hdry.1 hdry.2, ok_bind,
    Reg64.read_written 2 hwet.1 hwet.2, ok_bind]
  dsimp only
  rw [hres, ok_bind, h.dlWrite_eq (h.chan_fits hseq).1, ok_bind]
  rfl

/-- What stands in the state after a CHSTEP, word by word and field by field. -/
theorem State.Inv.channelDone_writes {s t : State} (h : s.Inv) (i ch : Nat) (wv out : Word)
    (ht : t = s.channelDone i ch wv out) :
    (∀ a, t.dlm.read a = if a = ch * s.cap + s.cursor ch then wv else s.dlm.read a) ∧
      (∀ a, t.outBuf.read a = if a = sampleIndex ch i then out else s.outBuf.read a) ∧
      t.wi = s.wi.set ch ((s.cursor ch + 1) % s.cap) ∧
      t.seq = (if ch + 1 < s.pnch.toNat then .chan i (ch + 1) else if i + 1 < s.pf.toNat then .frame (i + 1) else .idle) ∧
      t = { s with
        dlm := t.dlm, outBuf := t.outBuf, wi := t.wi, seq := t.seq, draws := t.draws
        doneR := if t.seq = .idle then s.doneR + 1 else s.doneR } := by
  subst ht
  exact ⟨fun a => Memory.read_write h.dlmForm a _ wv, fun a => Memory.read_write h.outForm a _ out, rfl, rfl, rfl⟩

/-- Settles O53: the tap at the base delay is what the delay line gives and the write is computed from. -/
theorem channelStepStandard : Obligations.ChannelStepStandard := by
  rintro i ch s _ _ _ _ h hseq hz hv hfb hdry hwet rfl rfl rfl rfl
  have hread : s.feedbackFor false = .ok (joinWords s.feedback.lo s.feedback.hi) := Reg64.read_written 3 hfb.1 hfb.2
  refine ⟨_, ?_, h.channelDone_writes i ch _ _ rfl⟩
  rw [microStep_chan hseq, h.chStep_eq hseq hz hv hread hdry hwet (h.standardPath_eq hseq _ _ _), settle_ok]
  rfl

/-- Settles O54: the tap sum is what the delay line gives, and its clamped feedback is written. -/
theorem channelStepZeno : Obligations.ChannelStepZeno := by
  rintro i ch s _ h hseq hz hv hdry hwet rfl
  refine ⟨fun d g e => rfl, ?_, ?_⟩
  · rintro off offs d g e _ hlo hhi rfl
    exact h.zenoEcho_cons (h.chan_fits hseq).1 hlo hhi offs d g e
  · obtain ⟨echo, hecho⟩ := h.zenoEcho_taps_ok hseq (s.draws + 13) s.cfg.zenoG0 0
    refine ⟨echo, _, _, hecho, rfl, ?_, h.channelDone_writes i ch _ _ rfl⟩
    rw [microStep_chan hseq, h.chStep_eq hseq hz hv rfl hdry hwet (zenoPath_eq hecho _), settle_ok]
    rfl

/-! ### The registers of a command -/

/-- A micro-step that answers a next state finds nothing to do, enters a fault, or writes `DLM`, `OUT`, the cursors,
`PHASE` and the latches of the datapath and moves the sequencer. -/
theorem microStep_cases {s t : State} (h : microStep s = .next t) :
    (s.seq = .idle ∧ t = s) ∨ (∃ e v, t = s.enterFault .r e v) ∨
      (s.seq ≠ .idle ∧ ∃ dlm wi phase active gl gr outBuf draws q,
        t = ({ s with
          dlm := dlm, wi := wi, phase := phase, active := active, gl := gl, gr := gr, outBuf := outBuf
          draws := draws }).goto q) := by
  cases hseq : s.seq with
  | idle =>
    have hidle : microStep s = .next s := by simp only [microStep, hseq]
    cases hidle.symm.trans h
    exact .inl ⟨rfl, rfl⟩
  | frame i =>
    rw [microStep_frame hseq] at h
    rcases settle_next h with hb | ⟨e, v, -, ht⟩
    · obtain ⟨-, q, p, n, -, -, ht⟩ := frameBegin_ok hb
      exact .inr (.inr ⟨nofun, _, _, p, _, _, _, _, n, q, ht⟩)
    · exact .inr (.inl ⟨e, v, ht⟩)
  | chan i ch =>
    rw [microStep_chan hseq] at h
    rcases settle_next h with hb | ⟨e, v, -, ht⟩
    · obtain ⟨-, -, wv, out, n, ht⟩ := chStep_ok hb
      exact .inr (.inr ⟨nofun, _, _, _, _, _, _, _, _, _, ht⟩)
    · exact .inr (.inl ⟨e, v, ht⟩)

theorem State.wide_congr {s t : State} (htime : t.time = s.time) (hdry : t.dry = s.dry) (hwet : t.wet = s.wet)
    (hfeedback : t.feedback = s.feedback) (r : Wide) : t.wide r = s.wide r := by cases r <;> assumption

/-- Settles O21: none of a micro-step's ends writes one of these registers, and only a move of the sequencer to `IDLE`
completes the PROCESS. -/
theorem microStepWritesNoRegister : Obligations.MicroStepWritesNoRegister := by
  intro s t h
  rcases microStep_cases h with ⟨hseq, rfl⟩ | ⟨e, v, rfl⟩ | ⟨hseq, _, _, _, _, _, _, _, _, q, rfl⟩
  all_goals refine ⟨State.wide_congr rfl rfl rfl rfl, rfl, rfl, rfl, rfl, rfl, rfl, rfl, rfl, rfl, rfl, rfl, rfl, rfl, rfl,
    rfl, rfl, rfl, rfl, rfl, rfl, ?_, rfl, rfl, rfl, rfl⟩
  · simp [hseq]
  · simp
  · simp [hseq]

end Sys2Proof.Machine
end

section
/-! PROOFS. A block runs to its end (44_render.md R203, R204; 42_delay_line.md R159): while port C is quiet, each step is a
micro-step without a fault, of which the place of the sequencer says how many are left. -/

namespace Sys2Proof.Machine

open Sys2Proof.Claims

/-! ### Runs -/

theorem run_succ_of_next {M : Host.Core} {s t : M.State} (h : M.step s = .next t) (k : Nat) :
    M.run (k + 1) s = M.run k t := by
  rw [Host.Core.run, h]

/-! ### What is left of a block -/

/-- The micro-steps that a block of `pnch` channels and `pf` frames still has at a place of the sequencer (44_render.md
R204). -/
def Seq.stepsLeft (q : Seq) (pnch pf : Nat) : Nat :=
  match q with
  | .idle => 0
  | .frame i => (pf - i) * (1 + pnch)
  | .chan i ch => (pf - (i + 1)) * (1 + pnch) + (pnch - ch)

/-- The CHSTEPs of channel `c` that a block of `pf` frames still has at a place of the sequencer. -/
def Seq.advancesLeft (q : Seq) (pf c : Nat) : Nat :=
  match q with
  | .idle => 0
  | .frame i => pf - i
  | .chan i ch => pf - (i + 1) + if ch ≤ c then 1 else 0

/-- The micro-steps that the block still has. -/
def State.stepsLeft (s : State) : Nat := s.seq.stepsLeft s.pnch.toNat s.pf.toNat

/-- The CHSTEPs of channel `c` that the block still has. -/
def State.advancesLeft (s : State) (c : Nat) : Nat := s.seq.advancesLeft s.pf.toNat c

/-- The completions that a block still signals (44_render.md R203). -/
def State.completionsLeft (s : State) : Nat := if s.seq = .idle then 0 else 1

theorem stepsLeft_afterFrame (s : State) (i : Nat) :
    (s.afterFrame i).stepsLeft s.pnch.toNat s.pf.toNat = (s.pf.toNat - (i + 1)) * (1 + s.pnch.toNat) := by
  rw [State.afterFrame]
  split
  · rfl
  · rw [Nat.sub_eq_zero_of_le (not_lt.1 ‹_›), Nat.zero_mul]
    rfl

theorem advancesLeft_afterFrame (s : State) (i c : Nat) :
    (s.afterFrame i).advancesLeft s.pf.toNat c = s.pf.toNat - (i + 1) := by
  rw [State.afterFrame]
  split
  · rfl
  · exact (Nat.sub_eq_zero_of_le (not_lt.1 ‹_›)).symm

/-- FRAME_BEGIN is one micro-step of the frame, whose channels are still to come. -/
theorem stepsLeft_firstChannel {s : State} {i : Nat} (hi : i < s.pf.toNat) :
    (if 0 < s.pnch.toNat then Seq.chan i 0 else s.afterFrame i).stepsLeft s.pnch.toNat s.pf.toNat + 1 =
      (Seq.frame i).stepsLeft s.pnch.toNat s.pf.toNat := by
  have hframe : (Seq.frame i).stepsLeft s.pnch.toNat s.pf.toNat =
      (s.pf.toNat - (i + 1)) * (1 + s.pnch.toNat) + (1 + s.pnch.toNat) := by
    show (s.pf.toNat - i) * (1 + s.pnch.toNat) = _
    rw [show s.pf.toNat - i = s.pf.toNat - (i + 1) + 1 by omega, Nat.succ_mul]
  rw [hframe]
  split
  · show (s.pf.toNat - (i + 1)) * (1 + s.pnch.toNat) + (s.pnch.toNat - 0) + 1 = _
    omega
  · rw [stepsLeft_afterFrame]
    omega

theorem stepsLeft_afterChannel {s : State} {ch : Nat} (hch : ch < s.pnch.toNat) (i : Nat) :
    (s.afterChannel i ch).stepsLeft s.pnch.toNat s.pf.toNat + 1 = (Seq.chan i ch).stepsLeft s.pnch.toNat s.pf.toNat := by
  show _ = (s.pf.toNat - (i + 1)) * (1 + s.pnch.toNat) + (s.pnch.toNat - ch)
  rw [State.afterChannel]
  split
  · show (s.pf.toNat - (i + 1)) * (1 + s.pnch.toNat) + (s.pnch.toNat - (ch + 1)) + 1 = _
    omega
  · rw [stepsLeft_afterFrame]
    omega

theorem advancesLeft_firstChannel {s : State} {i c : Nat} (hi : i < s.pf.toNat) (hc : c < s.pnch.toNat) :
    (if 0 < s.pnch.toNat then Seq.chan i 0 else s.afterFrame i).advancesLeft s.pf.toNat c =
      (Seq.frame i).advancesLeft s.pf.toNat c := by
  rw [if_pos (Nat.zero_lt_of_lt hc)]
  simp only [Seq.advancesLeft, Nat.zero_le, if_true]
  omega

/-- CHSTEP(i, ch) is one of the advances of channel `ch`, and of no other. -/
theorem advancesLeft_afterChannel {s : State} {ch c : Nat} (hch : ch < s.pnch.toNat) (hc : c < s.pnch.toNat) (i : Nat) :
    (s.afterChannel i ch).advancesLeft s.pf.toNat c + (if c = ch then 1 else 0) =
      (Seq.chan i ch).advancesLeft s.pf.toNat c := by
  rw [State.afterChannel]
  split
  · simp only [Seq.advancesLeft]
    split_ifs <;> omega
  · rw [advancesLeft_afterFrame]
    simp only [Seq.advancesLeft]
    split_ifs <;> omega

theorem State.Inv.frame_inBlock {s : State} (h : s.Inv) {i : Nat} (hseq : s.seq = .frame i) : i < s.pf.toNat := by
  simpa [hseq, Seq.inBlock] using h.seqRange

theorem State.Inv.chan_inBlock {s : State} (h : s.Inv) {i ch : Nat} (hseq : s.seq = .chan i ch) :
    i < s.pf.toNat ∧ ch < s.pnch.toNat := by
  simpa [hseq, Seq.inBlock] using h.seqRange

/-- In a block something is left to do, and outside nothing. -/
theorem State.Inv.stepsLeft_eq_zero_iff {s : State} (h : s.Inv) : s.stepsLeft = 0 ↔ s.seq = .idle := by
  rw [State.stepsLeft]
  cases hseq : s.seq with
  | idle => exact iff_of_true rfl rfl
  | frame i =>
    have hframes : 0 < s.pf.toNat - i := Nat.sub_pos_of_lt (h.frame_inBlock hseq)
    exact iff_of_false (Nat.mul_pos hframes (by omega)).ne' nofun
  | chan i ch =>
    have hchannels : 0 < s.pnch.toNat - ch := Nat.sub_pos_of_lt (h.chan_inBlock hseq).2
    exact iff_of_false (Nat.add_pos_right _ hchannels).ne' nofun

/-- A state of a block that runs undisturbed: it is not FAULTED, port C is quiet and the registers are written. -/
structure State.RunsAlone (s : State) : Prop where
  inv : s.Inv
  unfaulted : s.faulted = false
  quiet : s.controlQuiet = true
  written : s.blockRegistersWritten = true

/-- What the micro-steps of a block keep: the counts of channels, `CAP`, the cursors of other channels, and what each cursor
of the block and the completion count come to in the end. -/
structure BlockKeeps (s t : State) : Prop where
  nch : t.nch = s.nch
  cap : t.cap = s.cap
  pnch : t.pnch = s.pnch
  cursor : ∀ c < s.pnch.toNat, (t.cursor c + t.advancesLeft c) % s.cap = (s.cursor c + s.advancesLeft c) % s.cap
  others : ∀ c, s.pnch.toNat ≤ c → t.cursor c = s.cursor c
  completions : t.doneR + t.completionsLeft = s.doneR + s.completionsLeft

theorem BlockKeeps.refl (s : State) : BlockKeeps s s := ⟨rfl, rfl, rfl, fun _ _ => rfl, fun _ _ => rfl, rfl⟩

theorem BlockKeeps.trans {s t u : State} (h : BlockKeeps s t) (h' : BlockKeeps t u) : BlockKeeps s u where
  nch := h'.nch.trans h.nch
  cap := h'.cap.trans h.cap
  pnch := h'.pnch.trans h.pnch
  cursor c hc := by
    have := h'.cursor c (h.pnch ▸ hc)
    rw [h.cap] at this
    exact this.trans (h.cursor c hc)
  others c hc := (h'.others c (h.pnch ▸ hc)).trans (h.others c hc)
  completions := h'.completions.trans h.completions

/-! ### One step of a block -/

/-- With port C quiet, the step of a block is a micro-step (20_memory.md R82, R84). -/
theorem State.RunsAlone.step_eq {s : State} (h : s.RunsAlone) (hseq : s.seq ≠ .idle) : step s = microStep s := by
  have hready : s.renderReady = true := by simp [State.renderReady, hseq]
  have hquiet : ¬(s.controlReady = true ∨ s.weakPend ≠ []) := by
    have := h.quiet
    simp only [State.controlQuiet, Bool.and_eq_true, Bool.not_eq_true', beq_iff_eq] at this
    simp [this]
  have hpick : s.pick = some (.render, s) := by rw [State.pick, enabled_of_quiet hready hquiet]
  rw [step_of_pick h.unfaulted hpick, eventOf_render_of_block (h.inv.oneCommand hseq) hseq, eventStep]

/-- A move of the sequencer out of `s` keeps these when the cursors have moved as it says. -/
theorem BlockKeeps.of_goto {s u : State} {q : Seq} (hs : s.seq ≠ .idle) (hnch : u.nch = s.nch) (hcap : u.cap = s.cap)
    (hpnch : u.pnch = s.pnch) (hpf : u.pf = s.pf) (hdone : u.doneR = s.doneR)
    (hcursor : ∀ c < s.pnch.toNat,
      (u.cursor c + q.advancesLeft s.pf.toNat c) % s.cap = (s.cursor c + s.advancesLeft c) % s.cap)
    (hothers : ∀ c, s.pnch.toNat ≤ c → u.cursor c = s.cursor c) : BlockKeeps s (u.goto q) where
  nch := hnch
  cap := hcap
  pnch := hpnch
  cursor c hc := by
    rw [State.advancesLeft, State.seq_goto, State.pf_goto, hpf]
    exact hcursor c hc
  others := hothers
  completions := by
    by_cases hq : q = .idle <;> simp [State.completionsLeft, hdone, hs, hq]

/-- What each step of a block that runs alone does. -/
def StepsOn (s t : State) : Prop := t.RunsAlone ∧ t.stepsLeft + 1 = s.stepsLeft ∧ BlockKeeps s t

/-- Every register FRAME_BEGIN reads is written, so it ends ordinarily. -/
theorem frameBegin_exists_ok {s : State} (h : s.blockRegistersWritten = true) (i : Nat) : ∃ t, frameBegin i s = .ok t := by
  simp only [State.blockRegistersWritten, Bool.and_eq_true, Bool.or_eq_true, Bool.not_eq_true'] at h
  obtain ⟨⟨⟨⟨⟨⟨⟨-, hpp⟩, -⟩, -⟩, -⟩, -⟩, -⟩, hfreq⟩ := h
  rcases hfreq with ha | hf
  · exact ⟨_, frameBegin_inactive hpp ha i⟩
  · cases ha : pingpongActive s.pingpong.val s.pnch with
    | true => exact ⟨_, frameBegin_active hpp ha hf i⟩
    | false => exact ⟨_, frameBegin_inactive hpp ha i⟩

/-- Both delay algorithms read in range, so each has a result. -/
theorem State.Inv.delayPath_exists_ok {s : State} (h : s.Inv) {i ch : Nat} (hseq : s.seq = .chan i ch) (z : Bool)
    (d : Nat) (input : Word) (fb : Word64) : ∃ res, delayPath s d ch z input fb = .ok res := by
  cases z with
  | true =>
    obtain ⟨echo, hecho⟩ := h.zenoEcho_taps_ok hseq (d + 5) s.cfg.zenoG0 0
    exact ⟨_, zenoPath_eq hecho input⟩
  | false => exact ⟨_, h.standardPath_eq hseq d input fb⟩

/-- Every register CHSTEP reads is written, so it ends ordinarily. -/
theorem chStep_exists_ok {s : State} (h : s.Inv) {i ch : Nat} (hseq : s.seq = .chan i ch)
    (hw : s.blockRegistersWritten = true) : ∃ t, chStep i ch s = .ok t := by
  simp only [State.blockRegistersWritten, Bool.and_eq_true, Bool.or_eq_true] at hw
  obtain ⟨⟨⟨⟨⟨⟨⟨hz, -⟩, hdl⟩, hdh⟩, hwl⟩, hwh⟩, hfb⟩, -⟩ := hw
  obtain ⟨fb, hread⟩ : ∃ fb, s.feedbackFor s.zeno.val = .ok fb := feedbackFor_ok fun ⟨hv, hunwritten⟩ =>
    unwritten_half_iff.1 hunwritten (hfb.resolve_left (Bool.eq_false_iff.1 hv))
  obtain ⟨res, hres⟩ := h.delayPath_exists_ok hseq s.zeno.val (s.draws + 8) (s.inBuf.read (sampleIndex ch i)) fb
  exact ⟨_, h.chStep_eq hseq hz rfl hread ⟨hdl, hdh⟩ ⟨hwl, hwh⟩ hres⟩

theorem cursor_dlAdvance_other (s : State) {ch c : Nat} (hc : c ≠ ch) : (dlAdvance s ch).cursor c = s.cursor c := by
  simp [State.cursor, List.getD_eq_getElem?_getD, List.getElem?_set_ne hc.symm]

theorem State.RunsAlone.frame_step {s : State} (h : s.RunsAlone) {i : Nat} (hseq : s.seq = .frame i) :
    ∃ t, step s = .next t ∧ StepsOn s t := by
  have hs : s.seq ≠ .idle := by simp [hseq]
  obtain ⟨t, hb⟩ := frameBegin_exists_ok h.written i
  have hinv := frameBegin_inv h.inv hseq hb
  have hstep : step s = .next t := by rw [h.step_eq hs, microStep_frame hseq, hb, settle_ok]
  obtain ⟨-, q, p, n, rfl, -, ht⟩ := frameBegin_ok hb
  generalize t.gl = gl at ht
  generalize t.gr = gr at ht
  subst ht
  refine ⟨_, hstep, ⟨hinv, h.unfaulted, h.quiet, h.written⟩, ?_, .of_goto hs rfl rfl rfl rfl rfl (fun c hc => ?_)
    fun _ _ => rfl⟩
  · rw [State.stepsLeft, State.stepsLeft, hseq]
    exact stepsLeft_firstChannel (h.inv.frame_inBlock hseq)
  · rw [State.advancesLeft, hseq, advancesLeft_firstChannel (h.inv.frame_inBlock hseq) hc]
    rfl

theorem State.RunsAlone.chan_step {s : State} (h : s.RunsAlone) {i ch : Nat} (hseq : s.seq = .chan i ch) :
    ∃ t, step s = .next t ∧ StepsOn s t := by
  have hs : s.seq ≠ .idle := by simp [hseq]
  have hch := (h.inv.chan_inBlock hseq).2
  obtain ⟨t, hb⟩ := chStep_exists_ok h.inv hseq h.written
  have hinv := chStep_inv h.inv hseq hb
  have hstep : step s = .next t := by rw [h.step_eq hs, microStep_chan hseq, hb, settle_ok]
  obtain ⟨hline, -, wv, out, n, rfl⟩ := chStep_ok hb
  refine ⟨_, hstep, ⟨hinv, h.unfaulted, h.quiet, h.written⟩, ?_, .of_goto hs rfl rfl rfl rfl rfl (fun c hc => ?_)
    fun c hc => cursor_dlAdvance_other s (by omega)⟩
  · rw [State.stepsLeft, State.stepsLeft, hseq]
    exact stepsLeft_afterChannel hch i
  · have hleft := advancesLeft_afterChannel hch hc i
    rw [State.advancesLeft, hseq, ← hleft]
    by_cases hcc : c = ch
    · subst hcc
      show ((dlAdvance s c).cursor c + _) % _ = _
      rw [h.inv.cursor_dlAdvance hline, Nat.mod_add_mod, if_pos rfl]
      congr 1
      omega
    · show ((dlAdvance s ch).cursor c + _) % _ = _
      rw [cursor_dlAdvance_other s hcc, if_neg hcc]
      rfl

/-- A block that runs alone ends after the steps it has left, and not before. -/
theorem State.RunsAlone.run_to_end {n : Nat} {s : State} (h : s.RunsAlone) (hn : s.stepsLeft = n) :
    (∀ k < n, ∃ u : State, Host.Core.run core k s = .next u ∧ u.seq ≠ .idle) ∧
      ∃ t : State, Host.Core.run core n s = .next t ∧ t.RunsAlone ∧ t.seq = .idle ∧ BlockKeeps s t := by
  induction n generalizing s with
  | zero => exact ⟨nofun, s, rfl, h, h.inv.stepsLeft_eq_zero_iff.1 hn, .refl s⟩
  | succ n ih =>
    have hs : s.seq ≠ .idle := fun hidle => by simp [h.inv.stepsLeft_eq_zero_iff.2 hidle] at hn
    obtain ⟨t, hstep, halone, hleft, hkeeps⟩ : ∃ t, step s = .next t ∧ StepsOn s t := by
      cases hseq : s.seq with
      | idle => exact absurd hseq hs
      | frame i => exact h.frame_step hseq
      | chan i ch => exact h.chan_step hseq
    obtain ⟨hbefore, u, hrun, hu, hidle, hkeeps'⟩ := ih halone (by omega)
    refine ⟨fun k hk => ?_, u, (run_succ_of_next (M := core) hstep n).trans hrun, hu, hidle, hkeeps.trans hkeeps'⟩
    cases k with
    | zero => exact ⟨s, rfl, hs⟩
    | succ k =>
      obtain ⟨v, hv, hvs⟩ := hbefore k (by omega)
      exact ⟨v, (run_succ_of_next (M := core) hstep k).trans hv, hvs⟩

/-- Settles O59: at the first frame `PF * (1 + PNCH)` micro-steps are left, and `PF` advances of each channel. -/
theorem blockEndsInBoundedSteps : Obligations.BlockEndsInBoundedSteps := by
  intro s hinv hf hseq hquiet hw
  have hs : s.seq ≠ .idle := by simp [hseq]
  have hsteps : s.stepsLeft = blockSteps s := by
    rw [State.stepsLeft, hseq]
    rfl
  obtain ⟨hbefore, t, hrun, ht, hidle, hkeeps⟩ := State.RunsAlone.run_to_end ⟨hinv, hf, hquiet, hw⟩ hsteps
  refine ⟨hbefore, t, hrun, hidle, ht.unfaulted, ?_, fun c hc => ?_, hkeeps.others⟩
  · simpa [State.completionsLeft, hidle, hs] using hkeeps.completions
  · have hline : c < t.nch.toNat := by
      rw [hkeeps.nch]
      exact hc.trans_le (hinv.blockFits hs).2.1
    have hend := hkeeps.cursor c hc
    rw [State.advancesLeft, State.advancesLeft, hidle, hseq] at hend
    rw [← Nat.mod_eq_of_lt (ht.inv.cursor_lt hline), hkeeps.cap]
    exact hend

end Sys2Proof.Machine
end

section
/-! PROOFS. PROCESS (44_render.md R190 to R193, R207): the base delay, the faults of BLOCK_BEGIN, the bypass copy and the
beginning of a block. -/

namespace Sys2Proof.Machine

open Sys2Proof.Claims

/-! ### The base delay (44_render.md R193) -/

/-- `roundHA` has no value at a NaN only. -/
theorem roundHA_eq_none_iff {x : Word64} : roundHA x = none ↔ isNaN64 x = true := by
  rw [roundHA, isNaN64]
  cases datum64 x with
  | nan => simp
  | inf neg => cases neg <;> simp
  | fin neg n => simp

/-- The product of `TIME` and `SR` is rounded to an integer, or is a NaN, whatever NaN is drawn for it. -/
theorem roundHA_mul64 (ftz : Bool) (d : Nat) (a b : Word64) :
    (binary64.product ftz (datum64 a) (datum64 b)).bind (fun bits => roundHA (BitVec.ofNat 64 bits)) =
      roundHA (mul64 ftz d a b) := by
  rw [mul64]
  cases binary64.product ftz (datum64 a) (datum64 b) with
  | none => exact (roundHA_eq_none_iff.2 (nan64_isNaN d)).symm
  | some bits => rfl

theorem baseDelay_of_time_unwritten {s : State} (h : ¬bothWritten s.time) : baseDelay s = .error (.trap .unwritten 0) := by
  rw [baseDelay, Reg64.read_unwritten 0 h, error_bind]

section
variable {s : State} {t prod : Word64} (h : bothWritten s.time) (ht : t = joinWords s.time.lo s.time.hi) {d : Nat}
  (hprod : prod = mul64 s.cfg.ftz d t s.sr)
include h ht hprod

theorem baseDelay_of_nan (hnan : isNaN64 prod = true) : baseDelay s = .error (.trap .badTime (highWord t)) := by
  subst ht hprod
  rw [baseDelay, Reg64.read_written 0 h.1 h.2, ok_bind]
  simp only [roundHA_mul64 s.cfg.ftz d, roundHA_eq_none_iff.2 hnan]

theorem baseDelay_of_rounded {r : RoundedValue} (hr : roundHA prod = some r) :
    baseDelay s = .ok (clampI r 1 ((s.cap : Int) - 1)).toNat := by
  subst ht hprod
  rw [baseDelay, Reg64.read_written 0 h.1 h.2, ok_bind]
  simp only [roundHA_mul64 s.cfg.ftz d, hr]

end

/-- Settles O46: the product has a rounding exactly when it is no NaN, and the clamp's bounds are in order. -/
theorem baseDelayIsTheClampedRounding : Obligations.BaseDelayIsTheClampedRounding := by
  intro s d t prod ht hprod
  refine ⟨baseDelay_of_time_unwritten, fun h hnan => baseDelay_of_nan h ht hprod hnan, fun h hnan hcap => ?_⟩
  obtain ⟨r, hr⟩ := Option.ne_none_iff_exists'.1 (mt roundHA_eq_none_iff.1 (Bool.eq_false_iff.1 hnan))
  have hb := clampI_bounds r (lo := 1) (hi := (s.cap : Int) - 1) (by omega)
  exact ⟨r, _, hr, baseDelay_of_rounded h ht hprod hr, by omega, by omega, by omega⟩

/-! ### The faults of PROCESS (60_exceptions.md R262) -/

theorem execProcess_renderPort {s : State} (h : s.port = .r) (a b f : Word) (st : Word64) :
    exec (.process a b f st) s = settle .r s (blockBegin a b f s) := by
  show settle s.port s (renderOnly s .process >>= _) = _
  rw [renderOnly, h]
  rfl

/-- Settles O49: PROCESS on port R is BLOCK_BEGIN, whose checks stand in this order, and the base delay's after them. -/
theorem processFaultsInOrder : Obligations.ProcessFaultsInOrder := by
  intro a b f st prod s code info hport hprod h
  rw [execProcess_renderPort hport, blockBegin]
  split at h
  case isTrue hinit =>
    cases h
    rw [hinit]
    rfl
  case isFalse hinit =>
  rw [Bool.eq_true_of_not_eq_false hinit, require_true, ok_bind]
  split at h
  case isTrue hab =>
    cases h
    rw [beq_false_of_ne hab]
    rfl
  case isFalse hab =>
  obtain rfl := not_not.1 hab
  rw [beq_self_eq_true, require_true, ok_bind]
  split at h
  case isTrue hnch =>
    cases h
    rw [decide_eq_false (not_le.2 hnch)]
    rfl
  case isFalse hnch =>
  rw [decide_eq_true (not_lt.1 hnch), require_true, ok_bind]
  split at h
  case isTrue hmaxf =>
    cases h
    rw [Reg32.read_unwritten 17 hmaxf]
    rfl
  case isFalse hmaxf =>
  rw [Reg32.read_written 17 (Bool.eq_true_of_not_eq_false hmaxf), ok_bind]
  split at h
  case isTrue hf =>
    cases h
    rw [decide_eq_false (not_le.2 hf)]
    rfl
  case isFalse hf =>
  rw [decide_eq_true (not_lt.1 hf), require_true, ok_bind]
  split at h
  case isTrue hbyp =>
    cases h
    rw [Flag.read_unwritten 16 hbyp]
    rfl
  case isFalse hbyp =>
  rw [Flag.read_written 16 (Bool.eq_true_of_not_eq_false hbyp), ok_bind]
  split at h
  case isTrue => cases h
  case isFalse hval =>
  rw [if_neg hval]
  split at h
  case isTrue htime =>
    cases h
    rw [baseDelay_of_time_unwritten (unwritten_half_iff.1 htime)]
    rfl
  case isFalse htime =>
  split at h <;> cases h
  case isTrue hnan =>
  rw [baseDelay_of_nan (not_not.1 (mt unwritten_half_iff.2 htime)) rfl hprod hnan, highWord_joinWords]
  rfl

/-! ### Blocks that pass the checks -/

/-- What PROCESS does once its counts are checked (44_render.md R191). -/
theorem blockBegin_checked {n f : Word} {s : State} (hinit : s.initd = true) (hn : n.toNat ≤ s.nch.toNat)
    (hmw : s.maxf.written = true) (hf : f.toNat ≤ s.maxf.val.toNat) (hbw : s.bypass.written = true) :
    blockBegin n n f s =
      if s.bypass.val then
        .ok (({ s with pnch := n, pf := f, outBuf := copyBlock s.inBuf n.toNat f.toNat s.outBuf }).goto .idle)
      else baseDelay s >>= fun d =>
        .ok (({ s with pnch := n, pf := f, baseD := d }).goto (if 0 < f.toNat then .frame 0 else .idle)) := by
  rw [blockBegin, hinit, beq_self_eq_true, decide_eq_true hn, Reg32.read_written 17 hmw]
  simp only [require_true, ok_bind]
  rw [decide_eq_true hf, Flag.read_written 16 hbw]
  rfl

/-- Settles O47: the checks pass, and the base delay is latched with the counts. -/
theorem processBeginsAnActiveBlock : Obligations.ProcessBeginsAnActiveBlock := by
  intro n f st d s hport hinit hn hmw hf hbw hbv hd
  rw [execProcess_renderPort hport, blockBegin_checked hinit hn hmw hf hbw, if_neg (Bool.eq_false_iff.1 hbv), hd,
    ok_bind, settle_ok, State.goto]
  by_cases hpos : 0 < f.toNat <;> simp [hpos]

/-! ### The bypass copy (44_render.md R192) -/

theorem copyFrame_read_copied (input : Memory) {out : Memory} (h : out.wf) {ch n : Nat} (hch : ch < n) (i : Nat) :
    (copyFrame input i n out).read (sampleIndex ch i) = input.read (sampleIndex ch i) := by
  induction n with
  | zero => omega
  | succ n ih =>
    rw [copyFrame, Memory.read_write (copyFrame_wf input i n out h)]
    split
    case isTrue heq => rw [heq]
    case isFalse hne => exact ih (lt_of_le_of_ne (Nat.le_of_lt_succ hch) fun hcn => hne (hcn ▸ rfl))

theorem copyFrame_read_other (input out : Memory) {a i n : Nat} (ha : ∀ ch < n, a ≠ sampleIndex ch i) :
    (copyFrame input i n out).read a = out.read a := by
  induction n with
  | zero => rfl
  | succ n ih =>
    rw [copyFrame, Memory.read_write_other _ _ _ _ (ha n n.lt_succ_self)]
    exact ih fun ch hch => ha ch (Nat.lt_succ_of_lt hch)

/-- A later frame that wrote the same word would have written the same value. -/
theorem copyBlock_read_copied (input : Memory) {out : Memory} (h : out.wf) {ch n i f : Nat} (hch : ch < n) (hi : i < f) :
    (copyBlock input n f out).read (sampleIndex ch i) = input.read (sampleIndex ch i) := by
  induction f with
  | zero => omega
  | succ f ih =>
    by_cases hlast : ∃ c < n, sampleIndex ch i = sampleIndex c f
    · obtain ⟨c, hc, heq⟩ := hlast
      rw [heq]
      exact copyFrame_read_copied input (copyBlock_wf input n f out h) hc f
    · have hearlier : i ≠ f := fun hif => hlast ⟨ch, hch, hif ▸ rfl⟩
      rw [copyBlock, copyFrame_read_other input _ fun c hc heq => hlast ⟨c, hc, heq⟩]
      exact ih (by omega)

theorem copyBlock_read_other (input out : Memory) {a n f : Nat} (ha : ∀ ch i, ch < n → i < f → a ≠ sampleIndex ch i) :
    (copyBlock input n f out).read a = out.read a := by
  induction f with
  | zero => rfl
  | succ f ih =>
    rw [copyBlock, copyFrame_read_other input _ fun ch hch => ha ch f hch f.lt_succ_self]
    exact ih fun ch i hch hi => ha ch i hch (Nat.lt_succ_of_lt hi)

/-- Settles O48: the checks pass, and `OUT` is the copy; the parameters are not read. -/
theorem processBypassCopiesInToOut : Obligations.ProcessBypassCopiesInToOut := by
  intro n f st s hport hinit hn hmw hf hbw hbv hout
  have hend := execProcess_renderPort hport n n f st
  rw [blockBegin_checked hinit hn hmw hf hbw, if_pos hbv, settle_ok] at hend
  exact ⟨_, hend, fun ch i hch hi => copyBlock_read_copied s.inBuf hout hch hi,
    fun a ha => copyBlock_read_other s.inBuf s.outBuf ha, rfl⟩

end Sys2Proof.Machine
end

section
/-! PROOFS. The clamp of the Zeno write (44_render.md R198). -/

namespace Sys2Proof.Machine

open Sys2Proof.Claims

theorem natAbs_signedUnits (neg : Bool) (n : Nat) : (signedUnits neg n).natAbs = n := by
  cases neg <;> simp [signedUnits]

/-- The place of a pattern among the values is its magnitude with its sign. -/
theorem natAbs_rank (f : Format) (bits : Nat) : (f.rank bits).natAbs = magOf f bits := natAbs_signedUnits _ _

/-- A value clamped to `[−1, 1]` is a NaN or lies there. -/
theorem clampF_one (v : Word64) : isNaN64 (clampF v 0xBFF0000000000000 0x3FF0000000000000) = true ∨
    magOf binary64 (clampF v 0xBFF0000000000000 0x3FF0000000000000).toNat ≤ 0x3FF0000000000000 := by
  have hlo : binary64.rank (0xBFF0000000000000 : Word64).toNat = -0x3FF0000000000000 := by decide +kernel
  have hhi : binary64.rank (0x3FF0000000000000 : Word64).toNat = 0x3FF0000000000000 := by decide +kernel
  have hnanLo : isNaN64 0xBFF0000000000000 = false := by decide +kernel
  have hnanHi : isNaN64 0x3FF0000000000000 = false := by decide +kernel
  rw [clampF]
  split
  case isTrue => exact .inr (by decide +kernel)
  case isFalse hbelow =>
  split
  case isTrue => exact .inr (by decide +kernel)
  case isFalse habove =>
  cases hnan : isNaN64 v with
  | true => exact .inl rfl
  | false =>
    simp only [lt64, hnan, hnanLo, hlo, Bool.not_false, Bool.and_self, Bool.true_and, decide_eq_true_eq, not_lt] at hbelow
    simp only [lt64, hnan, hnanHi, hhi, Bool.not_false, Bool.and_self, Bool.true_and, decide_eq_true_eq, not_lt] at habove
    rw [← natAbs_rank]
    exact .inr (by omega)

theorem unitsOf_one64 : unitsOf binary64 0x3FF0000000000000 = 2 ^ 1074 := by decide +kernel

/-- Narrowing keeps `[−1, 1]`. -/
theorem narrow_mag_le_one (ftz : Bool) (d : Nat) {v : Word64} (h : magOf binary64 v.toNat ≤ 0x3FF0000000000000) :
    (narrow ftz d v).toNat % 2 ^ 31 ≤ 0x3F800000 := by
  have hunits : unitsOf binary64 (magOf binary64 v.toNat) ≤ 2 ^ 1074 :=
    unitsOf_one64 ▸ (unitsOf_strictMono binary64).monotone h
  have hmag : binary32.roundMag ftz (unitsOf binary64 (magOf binary64 v.toNat) * 2 ^ 149) (2 ^ 1074) ≤ 0x3F800000 := by
    refine binary32.roundMag_le_of_le (by decide) ftz (by positivity) ?_
    rw [unitsOf_one, Nat.mul_comm]
    exact Nat.mul_le_mul_left _ hunits
  rw [toNat_narrow (h.trans_lt (by decide +kernel)), rounded]
  generalize binary32.roundMag _ _ _ = mag at hmag
  show ((if _ then 0x80000000 else 0) + mag) % 2 ^ 31 ≤ 0x3F800000
  split <;> omega

/-- Settles O45: the clamped sum is a NaN or lies in `[−1, 1]`, and narrowing keeps both. -/
theorem zenoWriteIsClamped : Obligations.ZenoWriteIsClamped := by
  intro c d input echo hlim
  have hneg : neg64 0x3FF0000000000000 = 0xBFF0000000000000 := by decide
  rw [zenoWrite, hlim, hneg]
  exact (clampF_one _).imp (narrow_isNaN _ _) (narrow_mag_le_one _ _)

end Sys2Proof.Machine
end

section
/-! PROOFS. The interface commands (45_interface.md R230 to R237): the checks of INIT and what it allocates, the commands of
port R that only store or complete, and the flag of SETBYP and GETBYP. -/

namespace Sys2Proof.Machine

open Sys2Proof.Claims

/-! ### Commands of port R -/

/-- On port R a command of that port goes on to its meaning. -/
theorem settle_renderOnly_renderPort {s : State} {o : Op} (h : s.port = .r) (body : Unit → Except Raise State) :
    settle s.port s (renderOnly s o >>= body) = settle .r s (body ()) := by
  rw [renderOnly, h]
  rfl

/-- A command of port R that reads nothing leaves `t` and completes. -/
theorem settle_renderOnly_completes {s : State} {o : Op} (h : s.port = .r) (t : State) :
    settle s.port s (renderOnly s o >>= fun _ => .ok (t.complete s.port)) = .next { t with doneR := t.doneR + 1 } := by
  rw [settle_renderOnly_renderPort h, settle_ok, h]
  rfl

/-- Settles O25: both commands are accepted on port R and write nothing. -/
theorem deinitAndEventOnlyComplete : Obligations.DeinitAndEventOnlyComplete := fun s h =>
  ⟨settle_renderOnly_completes h s, fun _ _ _ _ => settle_renderOnly_completes h s⟩

/-- Settles O26: each command is accepted on port R and writes its one register. -/
theorem setmaxfAndSetctxStoreTheirOperand : Obligations.SetmaxfAndSetctxStoreTheirOperand := fun s h =>
  ⟨fun n => settle_renderOnly_completes h { s with maxf := ⟨n, true⟩ },
    fun x => settle_renderOnly_completes h { s with ctx := x }⟩

theorem execGetmaxf_renderPort {s : State} (h : s.port = .r) :
    exec .getmaxf s = settle .r s (s.maxf.read 17 >>= fun m => .ok ((s.respond .r m).complete .r)) := by
  show settle s.port s (renderOnly s .getmaxf >>= _) = _
  rw [settle_renderOnly_renderPort h, h]

/-- Settles O27: the answer is what the read of `MAXF` gives, and the fault is the read's. -/
theorem getmaxfAnswersTheBound : Obligations.GetmaxfAnswersTheBound := by
  intro s h
  rw [execGetmaxf_renderPort h]
  constructor <;> intro hw
  · rw [Reg32.read_written 17 hw, ok_bind, settle_ok]
    rfl
  · rw [Reg32.read_unwritten 17 hw, error_bind, settle_trap]
    rfl

/-! ### INIT (45_interface.md R230) -/

theorem execInit_renderPort {s : State} (h : s.port = .r) (a b : Word) (sr : Word64) :
    exec (.init a b sr) s = settle .r s (initCapacity s.cfg s.draws a b sr >>= fun cap =>
      .ok (((s.allocate a sr cap).drawn 1).complete .r)) := by
  show settle s.port s (renderOnly s .init >>= _) = _
  rw [settle_renderOnly_renderPort h, h]

/-- With every check passed, the capacity is the whole part of `SR` times the seconds of a line (42_delay_line.md R150). -/
theorem initCapacity_of_checks {c : Config} {d cap : Nat} {n : Word} {sr p : Word64} (hpos : lt64 0 sr = true)
    (hfin : sr ≠ posInf64) (hp : p = mul64 c.ftz d sr c.capSeconds) (hpfin : p ≠ posInf64) (hcap : cap = (floor64 p).toNat)
    (hmin : 2 ≤ cap) (hch : n.toNat ≤ c.maxCh) (hfit : n.toNat * cap ≤ c.dlmWords) :
    initCapacity c d n n sr = .ok cap := by
  subst hcap hp
  simp only [initCapacity, beq_self_eq_true, hpos, bne_iff_ne.2 hfin, bne_iff_ne.2 hpfin, decide_eq_true hmin,
    decide_eq_true hch, decide_eq_true hfit, Bool.and_self, require_true, ok_bind]

/-- Settles O23: the checks pass, and the zero fill covers the words of the allocated lines. -/
theorem initAllocatesSilentLines : Obligations.InitAllocatesSilentLines := by
  intro n sr p cap s hport hpos hfin hp hpfin hcap hmin hch hfit
  have hexec := execInit_renderPort hport n n sr
  rw [initCapacity_of_checks hpos hfin hp hpfin hcap hmin hch hfit, ok_bind, settle_ok] at hexec
  exact ⟨_, hexec, rfl, rfl, rfl, rfl, rfl, s.dlm.read_zeroBelow _, rfl⟩

/-- The body `x` raises the fault of number `code` with `info` (60_exceptions.md R261). -/
def RaisesFault {α : Type} (x : Except Raise α) (code : BitVec 8) (info : Word) : Prop :=
  ∃ e : TrapCode, e.number = code ∧ x = .error (.trap e info)

/-- A command whose body raises a fault only enters it, whatever was to follow (60_exceptions.md R260). -/
theorem RaisesFault.settle_bind {α : Type} {x : Except Raise α} {code : BitVec 8} {info : Word}
    (h : RaisesFault x code info) (p : Port) (s : State) (f : α → Except Raise State) :
    settle p s (x >>= f) = .next (faultedWith s p code info) := by
  obtain ⟨e, rfl, rfl⟩ := h
  rfl

/-- One check of a list of checks (60_exceptions.md R262): it raises its own fault when it fails, and the first fault of
the checks after it when it passes. -/
theorem RaisesFault.require_bind {α : Type} {P : Prop} [Decidable P] {ok : Bool} {e : TrapCode} {v info : Word}
    {code : BitVec 8} {later : Option (BitVec 8 × Word)} {f : Unit → Except Raise α}
    (h : (if P then some (e.number, v) else later) = some (code, info)) (hok : ok = true ↔ ¬P)
    (hlater : later = some (code, info) → RaisesFault (f ()) code info) : RaisesFault (require ok e v >>= f) code info := by
  split at h
  case isTrue hP =>
    cases h
    rw [Bool.eq_false_iff.2 fun hpass => hok.1 hpass hP]
    exact ⟨e, rfl, rfl⟩
  case isFalse hP =>
    rw [hok.2 hP]
    exact hlater h

/-- Settles O24, check by check. -/
theorem initFaultsInOrder : Obligations.InitFaultsInOrder := by
  rintro a b sr _ _ s code info hport rfl rfl h
  rw [execInit_renderPort hport]
  refine RaisesFault.settle_bind ?_ _ _ _
  refine .require_bind (e := .chMismatch) h (by simp) fun h => ?_
  refine .require_bind (e := .badSr) h (by simp) fun h => ?_
  refine .require_bind (e := .capacity) h bne_iff_ne fun h => ?_
  refine .require_bind (e := .badSr) h (decide_eq_true_iff.trans not_lt.symm) fun h => ?_
  refine .require_bind (e := .chRange) h (decide_eq_true_iff.trans not_lt.symm) fun h => ?_
  exact .require_bind (e := .capacity) h (decide_eq_true_iff.trans not_lt.symm) fun h => nomatch h

/-! ### SETBYP and GETBYP (45_interface.md R232, R233) -/

theorem applyWrite_bypass (s : State) (b : Bool) :
    s.applyWrite ⟨.bypass, bitWord b⟩ = { s with bypass := ⟨b, true⟩ } := by cases b <;> rfl

/-- Settles O28: the one write event is applied at once, or joins the pending set after the draw of its view. -/
theorem setbypStoresTheFlag : Obligations.SetbypStoresTheFlag := by
  refine fun b s => ⟨fun h => ?_, fun hp hw => ?_⟩
  · rw [exec, execSetbyp, State.drawBypassView, if_neg (not_pending_of_writesAtOnce h), complete_issueWrite_atOnce h,
      applyWrite_bypass]
    rfl
  · rw [exec, execSetbyp, State.drawBypassView, if_pos ⟨hp, hw⟩]
    exact congrArg Host.Outcome.next
      (complete_issueWrite_pending (s := { s.choiceUsed with bypassAhead := _ }) hp hw ⟨.bypass, bitWord b⟩)

theorem execGetbyp_of_written {s : State} (h : s.bypassView.written = true) :
    exec .getbyp s = .next (answered s (bitWord s.bypassView.val)) := by
  rw [exec, execGetbyp, Flag.read_written 16 h]
  rfl

theorem execGetbyp_of_unwritten {s : State} (h : s.bypassView.written = false) :
    exec .getbyp s = .next (faultedWith s s.port 8 16) := by
  rw [exec, execGetbyp, Flag.read_unwritten 16 h]
  rfl

/-- An answer leaves what a GETBYP sees as it was (20_memory.md R80). -/
theorem bypassView_answered (s : State) (v : Word) : (answered s v).bypassView = s.bypassView :=
  State.bypassView_congr rfl rfl rfl rfl rfl

/-- Settles O29: GETBYP answers its view, which the answer leaves alone. -/
theorem getbypAnswersTheFlag : Obligations.GetbypAnswersTheFlag := by
  rintro s x hx
  obtain rfl : x = s.bypassView := hx
  refine ⟨fun hw => ⟨_, rfl, execGetbyp_of_written hw, ?_⟩, execGetbyp_of_unwritten⟩
  have hagain := execGetbyp_of_written (s := answered s (bitWord s.bypassView.val)) (by rwa [bypassView_answered])
  rwa [bypassView_answered] at hagain

end Sys2Proof.Machine
end

section
/-! PROOFS. Faults and who owns what (60_exceptions.md R260, R263, R272): fault entry, what a step that faults changed, and
what a command of port C leaves alone. -/

namespace Sys2Proof.Machine

open Sys2Proof.Claims

/-! ### Fault entry -/

/-- 60_exceptions.md R261: 0 is no fault's number. -/
theorem TrapCode.number_ne_zero (e : TrapCode) : e.number ≠ 0 := by cases e <;> decide

theorem faulted_faultedWith (s : State) (p : Port) (e : TrapCode) (v : Word) :
    (faultedWith s p e.number v).faulted = true := bne_iff_ne.2 e.number_ne_zero

theorem step_of_faulted {s : State} (h : s.faulted = true) : step s = .fault .halted := if_pos h

theorem final_of_faulted {s : State} (h : s.faulted = true) : s.final = false := by
  rw [State.final, beq_eq_false_iff_ne.2 (bne_iff_ne.1 h), Bool.and_false]

/-- Settles O9: a fault's number is not 0, so the block is FAULTED, which stops a step and excludes a final state. -/
theorem faultEntryRecordsAndHalts : Obligations.FaultEntryRecordsAndHalts := fun p s e v =>
  ⟨settle_trap p s e v, step_of_faulted (faulted_faultedWith s p e v), final_of_faulted (faulted_faultedWith s p e v)⟩

/-! ### What the write events of a command leave alone -/

/-- `s` with everything blanked that a command of port C can write when it does not fault: the parameter registers, the
pending writes, port C's response, half-write and completions, and the choices and draws used. The datapath, the registers
of port R and the fault registers are left (60_exceptions.md R272). -/
def State.controlBlanked (s : State) : State :=
  { s with
    time := .unwritten, dry := .unwritten, wet := .unwritten, feedback := .unwritten
    zeno := .unwritten, pingpong := .unwritten, freq := .unwritten, bypass := .unwritten
    respC := 0, halfC := none, weakPend := [], doneC := 0, bypassAhead := false, draws := 0, choices := [] }

theorem issueWrite_controlBlanked (s : State) (w : RegWrite) : (s.issueWrite w).controlBlanked = s.controlBlanked := by
  unfold State.issueWrite
  split <;> rfl

theorem drawBypassView_controlBlanked (s : State) : s.drawBypassView.controlBlanked = s.controlBlanked := by
  rcases s.drawBypassView_cases with ⟨-, hs⟩ | ⟨-, -, hs⟩
  · rw [hs]
  · rw [hs]
    rfl

theorem issueWrite_drawBypassView_controlBlanked (s : State) (w : RegWrite) :
    (s.drawBypassView.issueWrite w).controlBlanked = s.controlBlanked :=
  (issueWrite_controlBlanked _ w).trans (drawBypassView_controlBlanked s)

theorem issueWrite_issueWrite_controlBlanked (s : State) (w w' : RegWrite) :
    ((s.issueWrite w).issueWrite w').controlBlanked = s.controlBlanked :=
  (issueWrite_controlBlanked _ w').trans (issueWrite_controlBlanked s w)

/-! ### A step that faults (60_exceptions.md R260, R263) -/

theorem faulted_eq_of_controlBlanked {s t : State} (h : t.controlBlanked = s.controlBlanked) :
    t.faulted = s.faulted := by
  have hf := congrArg State.faulted h
  exact hf

theorem faulted_complete (s : State) (p : Port) : (s.complete p).faulted = s.faulted := rfl

theorem writeWide_faulted (s : State) (r : Wide) (x : Word64) : (s.writeWide r x).faulted = s.faulted := by
  unfold State.writeWide
  split
  · exact faulted_eq_of_controlBlanked (issueWrite_issueWrite_controlBlanked s ⟨.lo r, lowWord x⟩ ⟨.hi r, highWord x⟩)
  · rfl

/-- A command writes the fault registers by fault entry only. -/
theorem CommandEffect.enterFault_or_faulted_eq {s t : State} (he : CommandEffect s t) :
    (∃ e v, t = s.enterFault s.port e v) ∨ t.faulted = s.faulted := by
  cases he with
  | fault e v => exact .inl ⟨e, v, rfl⟩
  | setbyp b =>
    exact .inr ((faulted_complete _ s.port).trans
      (faulted_eq_of_controlBlanked (issueWrite_drawBypassView_controlBlanked s ⟨.bypass, bitWord b⟩)))
  | write w =>
    exact .inr ((faulted_complete _ s.port).trans (faulted_eq_of_controlBlanked (issueWrite_controlBlanked s w)))
  | writeWide r x => exact .inr (writeWide_faulted (s.drawn 2) r x)
  | completes | init | answer | setmaxf | setctx | bypassed | block => exact .inr rfl

/-- A micro-step writes the fault registers by fault entry only. -/
theorem microStep_enterFault_or_faulted_eq {s t : State} (h : microStep s = .next t) :
    (∃ e v, t = s.enterFault .r e v) ∨ t.faulted = s.faulted := by
  rcases microStep_cases h with ⟨-, rfl⟩ | hfault | ⟨-, _, _, _, _, _, _, _, _, _, rfl⟩
  · exact .inr rfl
  · exact .inl hfault
  · exact .inr rfl

/-- Settles O17: every end of a command or micro-step but fault entry leaves the block as FAULTED as it was. -/
theorem faultingStepHasNoOtherEffect : Obligations.FaultingStepHasNoOtherEffect := by
  refine ⟨fun i s t hs h ht => ?_, fun s t hs h ht => ?_⟩
  · exact (exec_effect h).enterFault_or_faulted_eq.resolve_right (by simp [hs, ht])
  · exact (microStep_enterFault_or_faulted_eq h).resolve_right (by simp [hs, ht])

/-! ### A command of port C (60_exceptions.md R272) -/

/-- `t` is a fault entered from `s`, or differs from `s` only in what a command of port C can write. -/
def ControlEffect (s t : State) : Prop :=
  (∃ p e v, t = s.enterFault p e v) ∨ t.controlBlanked = s.controlBlanked

section
variable {s t : State} (hc : s.port = .c)
include hc

theorem ControlEffect.completes {u : State} (hu : u.controlBlanked = s.controlBlanked) :
    ControlEffect s (u.complete s.port) := by
  rw [hc]
  exact .inr hu

/-- A command that answers on port C what its body reads, after `n` arithmetic operations. -/
theorem ControlEffect.answers {α : Type} {x : Except Raise α} {n : Nat} {f : α → Word}
    (h : settle s.port s (x >>= fun a => .ok (((s.drawn n).respond s.port (f a)).complete s.port)) = .next t) :
    ControlEffect s t := by
  rcases settle_next h with hb | ⟨e, v, -, rfl⟩
  · obtain ⟨a, -, ha⟩ := bind_ok hb
    cases ha
    exact .completes hc (by rw [hc]; rfl)
  · exact .inl ⟨s.port, e, v, rfl⟩

theorem writeWide_controlBlanked (r : Wide) (x : Word64) : (s.writeWide r x).controlBlanked = s.controlBlanked := by
  unfold State.writeWide
  split
  · exact issueWrite_issueWrite_controlBlanked s ⟨.lo r, lowWord x⟩ ⟨.hi r, highWord x⟩
  · rw [hc]
    rfl

theorem execSetp_controlEffect {pa : BitVec 4} {v : Word} (h : execSetp pa v s = .next t) : ControlEffect s t := by
  unfold execSetp at h
  split at h <;> cases h
  case h_1 r _ => exact .inr (writeWide_controlBlanked (s := s.drawn 2) hc r _)
  case h_5 => exact .completes hc rfl
  all_goals exact .completes hc (issueWrite_controlBlanked s _)

/-- A command that port C does not accept only enters its fault, and the four it accepts write what port C can write. -/
theorem exec_controlEffect {i : Instr} (h : exec i s = .next t) : ControlEffect s t := by
  cases i with
  | setbyp b =>
    cases h
    exact .completes hc (issueWrite_drawBypassView_controlBlanked s _)
  | getbyp => exact .answers hc (n := 0) h
  | setp pa v => exact execSetp_controlEffect hc h
  | getp pa => exact .answers hc h
  | init | deinit | setmaxf | getmaxf | process | event | setctx =>
    cases (renderCommandOnControlPortIsIllegal _ s hc rfl).symm.trans h
    exact .inl ⟨.c, .illegalCmd, _, rfl⟩

end

/-- Settles O20: neither fault entry nor what port C can write is any of these. -/
theorem controlPortLeavesDatapathAlone : Obligations.ControlPortLeavesDatapathAlone := by
  intro i s t hc h
  rcases exec_controlEffect hc h with ⟨p, e, v, rfl⟩ | hsame
  · exact ⟨rfl, rfl, rfl, rfl, rfl, rfl, rfl, rfl, rfl, rfl, rfl, rfl, rfl, rfl, rfl, rfl, rfl, rfl, rfl, rfl, rfl⟩
  · simp only [State.controlBlanked, State.mk.injEq] at hsame
    simp only [hsame, and_self]

end Sys2Proof.Machine
end

section
/-! PROOFS. Final states (70_reset_and_hazards.md R293): no agent can move, so the block waits (R290). -/

namespace Sys2Proof.Machine

theorem final_iff {s : State} :
    s.final = true ↔ s.seq = .idle ∧ s.halfR = none ∧ s.halfC = none ∧ s.weakPend = [] ∧ s.inR = [] ∧ s.inC = [] ∧
      s.faulted = false := by
  simp [State.final, State.faulted, and_assoc]

theorem acceptOn_nil (p : Port) : acceptOn p [] = .wait := rfl

theorem portReady_of_queue_nil {s : State} {p : Port} (h : s.queue p = []) : s.portReady p = false := by
  rw [State.portReady, h, acceptOn_nil, bne_self_eq_false]

theorem enabled_of_final {s : State} (h : s.final = true) : s.enabled = [] := by
  obtain ⟨hseq, hhalfR, hhalfC, hpend, hinR, hinC, -⟩ := final_iff.1 h
  have hrender : s.renderReady = false := by
    simp [State.renderReady, hseq, hhalfR, portReady_of_queue_nil (p := .r) hinR]
  have hcontrol : s.controlReady = false := by
    simp [State.controlReady, hhalfC, portReady_of_queue_nil (p := .c) hinC]
  simp [State.enabled, hrender, hcontrol, hpend]

/-- Settles O10: a final state is not FAULTED and none of its agents can move, so its step is the block's waiting. -/
theorem finalStateKeepsStill : Obligations.FinalStateKeepsStill := by
  intro s h
  obtain ⟨-, -, -, -, -, -, hfault⟩ := final_iff.1 h
  exact step_of_pick_none hfault (State.pick_none.2 (enabled_of_final h))

end Sys2Proof.Machine
end
